-- ==== Sys2Proof/Word.lean ====
section
/-! DEFINITION. The word types of the sub003 sound core. -/

namespace Sys2Proof

/-- A host-visible register or a data beat: 64 bits (10_state.md R30, 20_memory.md R85). -/
abbrev Word := BitVec 64

/-- A binary64 value in its IEEE 754 interchange layout (00_scope.md R14, 20_memory.md R85). -/
abbrev F64 := BitVec 64

/-- A 32-bit unsigned value, as the noise generators use it (00_scope.md R16). -/
abbrev U32 := BitVec 32

/-- An oscillator channel number (00_scope.md R9: `NOSC = 4`). -/
abbrev Chan := Fin 4

end Sys2Proof
end

