-- ==== Sys2Proof/Syntax.lean ====
section
/-! DEFINITION. The host commands, one constructor per row of the opcode table, and the transaction that carries one
(30_encoding.md R100, R101, R105). -/

namespace Sys2Proof

/-- A host command (30_encoding.md R101). A selector is the 4-bit field `SEL`; WellFormed holds its legal values. -/
inductive Instr where
  /-- NOP, 40_host_commands.md R131. -/
  | nop
  /-- TICK, 40_host_commands.md R150. -/
  | tick
  /-- COMMIT, 40_host_commands.md R138. -/
  | commit
  /-- MODTICK, 40_host_commands.md R140. -/
  | modtick
  /-- SOFT_RESET, 40_host_commands.md R141. -/
  | softReset
  /-- RESET_UNIT, 40_host_commands.md R142. -/
  | resetUnit (sel : BitVec 4)
  /-- CLR_ERR, 40_host_commands.md R145. -/
  | clrErr
  /-- OSC_STEP, 41_oscillators.md R171. -/
  | oscStep (sel : BitVec 4)
  /-- OSC_PHASE_RESET, 41_oscillators.md R199. -/
  | oscPhaseReset (sel : BitVec 4)
  /-- FILT_PROC, 42_filters.md R231. -/
  | filtProc
  /-- DLY_PROC, 43_delay_lines.md R291. -/
  | dlyProc
  /-- EFX_PROC, 44_effect_filters.md R331. -/
  | efxProc
  /-- IR_GEN, 44_effect_filters.md R347. -/
  | irGen
  /-- VOWEL_LOAD, 42_filters.md R256. -/
  | vowelLoad (sel : BitVec 4)
  /-- CSR_WRITE with its data beat, 40_host_commands.md R132. -/
  | csrWrite (addr : BitVec 12) (data : Word)
  /-- CSR_READ, 40_host_commands.md R133. -/
  | csrRead (addr : BitVec 12)
  deriving DecidableEq, Repr

/-- One host transaction: the command word and the 64-bit data beat. The beat is sent with `OP = 0x10` only
(30_encoding.md R105); nothing reads it with another opcode. -/
structure Transaction where
  word : BitVec 32
  data : Word
  deriving DecidableEq, Repr

/-- Why a command word is ILLEGAL (30_encoding.md R107, R108). -/
inductive IllegalWord where
  /-- The field `RSV` is not 0 (R104). -/
  | reservedBits
  /-- `ADDR` is not 0 in a command that has no register index (R104). -/
  | address
  /-- `SEL` is outside the opcode's legal values (R103). -/
  | selector
  /-- `OP` is not in the opcode map (R101, R108). -/
  | opcode
  deriving DecidableEq, Repr

/-- What the decoder answers: a command, or ILLEGAL with its reason. -/
inductive Decoded where
  | command (i : Instr)
  | illegal (why : IllegalWord)
  deriving DecidableEq, Repr

end Sys2Proof
end

