-- ==== Sys2Proof/WellFormed.lean ====
section
/-! DEFINITION. Which command terms are commands: the selector ranges of 30_encoding.md R103. -/

namespace Sys2Proof

/-- The selector's legal values per command (30_encoding.md R103). Every 12-bit index may be addressed (a reserved one
raises BAD_CSR when performed, R102). -/
def Instr.wellFormed : Instr → Bool
  | .nop => true
  | .tick => true
  | .commit => true
  | .modtick => true
  | .softReset => true
  | .resetUnit sel => decide (sel ≤ 6#4)
  | .clrErr => true
  | .oscStep sel => decide (sel ≤ 3#4)
  | .oscPhaseReset sel => decide (sel ≤ 3#4)
  | .filtProc => true
  | .dlyProc => true
  | .efxProc => true
  | .irGen => true
  | .vowelLoad sel => decide (sel ≤ 4#4)
  | .csrWrite _ _ => true
  | .csrRead _ => true

end Sys2Proof
end

