-- ==== Sys2Proof/Decode.lean ====
section
/-! DEFINITION. Decoding a transaction (30_encoding.md R107) and encoding a command (R100, R101). -/

namespace Sys2Proof

/-- `OP`, bits 31:24 (30_encoding.md R100). -/
def opField (w : BitVec 32) : BitVec 8 := w.extractLsb' 24 8

/-- `SEL`, bits 23:20. -/
def selField (w : BitVec 32) : BitVec 4 := w.extractLsb' 20 4

/-- `RSV`, bits 19:12. -/
def rsvField (w : BitVec 32) : BitVec 8 := w.extractLsb' 12 8

/-- `ADDR`, bits 11:0. -/
def addrField (w : BitVec 32) : BitVec 12 := w.extractLsb' 0 12

/-- A `need` of 30_encoding.md R107: the command if the selector is legal, else ILLEGAL. -/
def needSel (i : Instr) (ok : Bool) : Decoded := if ok then .command i else .illegal .selector

/-- The `case op` of 30_encoding.md R107 for the commands without a register index. -/
def decodeOp (op : BitVec 8) (sel : BitVec 4) : Decoded :=
  match op.toNat with
  | 0x00 => needSel .nop (sel == 0)
  | 0x01 => needSel .tick (sel == 0)
  | 0x02 => needSel .commit (sel == 0)
  | 0x03 => needSel .modtick (sel == 0)
  | 0x04 => needSel .softReset (sel == 0)
  | 0x05 => needSel (.resetUnit sel) (decide (sel ≤ 6#4))
  | 0x06 => needSel .clrErr (sel == 0)
  | 0x08 => needSel (.oscStep sel) (decide (sel ≤ 3#4))
  | 0x09 => needSel (.oscPhaseReset sel) (decide (sel ≤ 3#4))
  | 0x0A => needSel .filtProc (sel == 0)
  | 0x0B => needSel .dlyProc (sel == 0)
  | 0x0C => needSel .efxProc (sel == 0)
  | 0x0D => needSel .irGen (sel == 0)
  | 0x0E => needSel (.vowelLoad sel) (decide (sel ≤ 4#4))
  | _ => .illegal .opcode

/-- `decode` of 30_encoding.md R107, total on every transaction. -/
def decode (t : Transaction) : Decoded :=
  let op := opField t.word
  let sel := selField t.word
  if rsvField t.word ≠ 0 then .illegal .reservedBits
  else if op = 0x10#8 then needSel (.csrWrite (addrField t.word) t.data) (sel == 0)
  else if op = 0x11#8 then needSel (.csrRead (addrField t.word)) (sel == 0)
  else if addrField t.word ≠ 0 then .illegal .address
  else decodeOp op sel

/-- A command word from its fields, `RSV` 0 (30_encoding.md R100). -/
def commandWord (op : BitVec 8) (sel : BitVec 4) (addr : BitVec 12) : BitVec 32 := op ++ sel ++ 0#8 ++ addr

/-- The opcode of a command (30_encoding.md R101). -/
def Instr.opcode : Instr → BitVec 8
  | .nop => 0x00
  | .tick => 0x01
  | .commit => 0x02
  | .modtick => 0x03
  | .softReset => 0x04
  | .resetUnit _ => 0x05
  | .clrErr => 0x06
  | .oscStep _ => 0x08
  | .oscPhaseReset _ => 0x09
  | .filtProc => 0x0A
  | .dlyProc => 0x0B
  | .efxProc => 0x0C
  | .irGen => 0x0D
  | .vowelLoad _ => 0x0E
  | .csrWrite _ _ => 0x10
  | .csrRead _ => 0x11

/-- The selector of a command, 0 where it uses none (30_encoding.md R100, R103). -/
def Instr.selector : Instr → BitVec 4
  | .resetUnit sel => sel
  | .oscStep sel => sel
  | .oscPhaseReset sel => sel
  | .vowelLoad sel => sel
  | .nop | .tick | .commit | .modtick | .softReset | .clrErr | .filtProc | .dlyProc | .efxProc | .irGen => 0
  | .csrWrite _ _ | .csrRead _ => 0

/-- The register index of a command, 0 where it has none (30_encoding.md R102, R104). -/
def Instr.address : Instr → BitVec 12
  | .csrWrite addr _ => addr
  | .csrRead addr => addr
  | .nop | .tick | .commit | .modtick | .softReset | .clrErr | .filtProc | .dlyProc | .efxProc | .irGen => 0
  | .resetUnit _ | .oscStep _ | .oscPhaseReset _ | .vowelLoad _ => 0

/-- The data beat of a command: `CSR_WRITE` carries one (30_encoding.md R105); every other field of 64 zero bits stands
for no beat. -/
def Instr.dataBeat : Instr → Word
  | .csrWrite _ data => data
  | .nop | .tick | .commit | .modtick | .softReset | .clrErr | .filtProc | .dlyProc | .efxProc | .irGen => 0
  | .resetUnit _ | .oscStep _ | .oscPhaseReset _ | .vowelLoad _ | .csrRead _ => 0

/-- The transaction of a command (30_encoding.md R100, R101, R105). -/
def encode (i : Instr) : Transaction := ⟨commandWord i.opcode i.selector i.address, i.dataBeat⟩

/-- Whether a transaction with this word ends in a response beat: `OP = 0x11`, legal or not (30_encoding.md R105). -/
def hasResponse (w : BitVec 32) : Bool := opField w == 0x11#8

/-- The transaction whose bits are `w`, bit 0 the command word's least significant bit and the data beat's bits from 32
on, as spec/opcode_table.json numbers them; bits from `nbits` up are 0. -/
def transactionOfBits (nbits w : Nat) : Transaction :=
  ⟨BitVec.ofNat 32 (w % 2 ^ nbits), BitVec.ofNat 64 ((w % 2 ^ nbits) >>> 32)⟩

/-- The command the decoder reads from an instruction whose bits are `w`. -/
def decodeTableWord (nbits w : Nat) : Option Instr :=
  match decode (transactionOfBits nbits w) with
  | .command i => some i
  | .illegal _ => none

end Sys2Proof
end

