-- ==== Sys2Proof/Machine/Fields.lean ====
section
/-! DEFINITION. The field registers: their enumerated codes, their fields, reading and writing them as 64-bit values
(10_state.md R33, R40, R45, R48, R52). Reserved bits read 0 and are ignored on a write; a reserved code makes the whole
value refused. -/

namespace Sys2Proof.Machine

/-- Bit `i` of `v`. -/
def bitOf (v : Word) (i : Nat) : Bool := v.getLsbD i

/-- `v[hi:lo]` as a number, `lo` first (00_scope.md R11). -/
def fieldOf (v : Word) (lo width : Nat) : Nat := v.toNat / 2 ^ lo % 2 ^ width

/-- A one-bit field placed at bit `i`. -/
def bitAt (b : Bool) (i : Nat) : Nat := if b then 2 ^ i else 0

/-- The waveform kinds of `OSC_CTRL.WAVE` (10_state.md R40). -/
inductive Wave where
  | sine | triangle | saw | square | pulse | noise | phaseDist | fm
  deriving DecidableEq, Repr

/-- `WAVE` codes 8 to 15 are reserved. -/
def Wave.ofCode : Nat → Option Wave
  | 0 => some .sine
  | 1 => some .triangle
  | 2 => some .saw
  | 3 => some .square
  | 4 => some .pulse
  | 5 => some .noise
  | 6 => some .phaseDist
  | 7 => some .fm
  | _ => none

/-- The code of a waveform. -/
def Wave.code : Wave → Nat
  | .sine => 0
  | .triangle => 1
  | .saw => 2
  | .square => 3
  | .pulse => 4
  | .noise => 5
  | .phaseDist => 6
  | .fm => 7

/-- The band-limiting modes of `OSC_CTRL.BL` (10_state.md R40, 41_oscillators.md R181). -/
inductive BandLimit where
  | naive | polyBlep | additive
  deriving DecidableEq, Repr

/-- `BL` code 3 is reserved. -/
def BandLimit.ofCode : Nat → Option BandLimit
  | 0 => some .naive
  | 1 => some .polyBlep
  | 2 => some .additive
  | _ => none

/-- The code of a band-limiting mode. -/
def BandLimit.code : BandLimit → Nat
  | .naive => 0
  | .polyBlep => 1
  | .additive => 2

/-- The filter topologies of `FILT_CTRL.TOPO` (10_state.md R45). -/
inductive Topology where
  | multi | ladder | sallenKey | svf | comb | formant
  deriving DecidableEq, Repr

/-- `TOPO` codes 6 and 7 are reserved. -/
def Topology.ofCode : Nat → Option Topology
  | 0 => some .multi
  | 1 => some .ladder
  | 2 => some .sallenKey
  | 3 => some .svf
  | 4 => some .comb
  | 5 => some .formant
  | _ => none

/-- The code of a topology. -/
def Topology.code : Topology → Nat
  | .multi => 0
  | .ladder => 1
  | .sallenKey => 2
  | .svf => 3
  | .comb => 4
  | .formant => 5

/-- The responses of `FILT_CTRL.RESP` and `EFX_CTRL.ERESP` (10_state.md R45, R52). -/
inductive Response where
  | lp | hp | bp | notch
  deriving DecidableEq, Repr

/-- Every response code is legal. -/
def Response.ofCode : Nat → Option Response
  | 0 => some .lp
  | 1 => some .hp
  | 2 => some .bp
  | 3 => some .notch
  | _ => none

/-- The code of a response. -/
def Response.code : Response → Nat
  | .lp => 0
  | .hp => 1
  | .bp => 2
  | .notch => 3

/-- The delay-line algorithms of `DLY_CTRL.MODE` (10_state.md R48). -/
inductive DelayMode where
  | delay | chorus | bbdDelay | bbdChorus | tape
  deriving DecidableEq, Repr

/-- `MODE` codes 5 to 7 are reserved. -/
def DelayMode.ofCode : Nat → Option DelayMode
  | 0 => some .delay
  | 1 => some .chorus
  | 2 => some .bbdDelay
  | 3 => some .bbdChorus
  | 4 => some .tape
  | _ => none

/-- The code of a delay-line algorithm. -/
def DelayMode.code : DelayMode → Nat
  | .delay => 0
  | .chorus => 1
  | .bbdDelay => 2
  | .bbdChorus => 3
  | .tape => 4

/-- The tempo divisions of `DLY_CTRL.DIV` (43_delay_lines.md R292). -/
inductive Division where
  | whole | half | quarter | eighth | sixteenth | thirtySecond
  | dottedQuarter | dottedEighth | tripletQuarter | tripletEighth
  deriving DecidableEq, Repr

/-- `DIV` codes 10 to 15 are reserved. -/
def Division.ofCode : Nat → Option Division
  | 0 => some .whole
  | 1 => some .half
  | 2 => some .quarter
  | 3 => some .eighth
  | 4 => some .sixteenth
  | 5 => some .thirtySecond
  | 6 => some .dottedQuarter
  | 7 => some .dottedEighth
  | 8 => some .tripletQuarter
  | 9 => some .tripletEighth
  | _ => none

/-- The code of a division. -/
def Division.code : Division → Nat
  | .whole => 0
  | .half => 1
  | .quarter => 2
  | .eighth => 3
  | .sixteenth => 4
  | .thirtySecond => 5
  | .dottedQuarter => 6
  | .dottedEighth => 7
  | .tripletQuarter => 8
  | .tripletEighth => 9

/-- The effect-filter algorithms of `EFX_CTRL.MODE` (10_state.md R52). -/
inductive EffectMode where
  | biquad | phaser | fir
  deriving DecidableEq, Repr

/-- `MODE` code 3 is reserved. -/
def EffectMode.ofCode : Nat → Option EffectMode
  | 0 => some .biquad
  | 1 => some .phaser
  | 2 => some .fir
  | _ => none

/-- The code of an effect-filter algorithm. -/
def EffectMode.code : EffectMode → Nat
  | .biquad => 0
  | .phaser => 1
  | .fir => 2

/-- `CTRL` (10_state.md R33). -/
structure Ctrl where
  filtEn : Bool
  dlyEn : Bool
  efxEn : Bool
  /-- 0: delay-line unit before effect-filter unit; 1: effect-filter unit first. -/
  chainOrder : Bool
  analogEn : Bool
  deriving DecidableEq, Repr

/-- The fields of a value written to `CTRL`; none is refused. -/
def Ctrl.ofWord (v : Word) : Option Ctrl := some ⟨bitOf v 0, bitOf v 1, bitOf v 2, bitOf v 3, bitOf v 4⟩

/-- `CTRL` as it reads. -/
def Ctrl.toWord (c : Ctrl) : Word :=
  BitVec.ofNat 64 (bitAt c.filtEn 0 + bitAt c.dlyEn 1 + bitAt c.efxEn 2 + bitAt c.chainOrder 3 + bitAt c.analogEn 4)

/-- `OSC_CTRL` (10_state.md R40). -/
structure OscCtrl where
  en : Bool
  wave : Wave
  bl : BandLimit
  /-- `OVS`, meaning the factor `2 ^ OVS`. -/
  ovs : Fin 4
  sync : Bool
  ring : Bool
  fmAlg : Fin 8
  deriving DecidableEq, Repr

/-- The fields of a value written to `OSC_CTRL`, refused with a reserved `WAVE` or `BL`. -/
def OscCtrl.ofWord (v : Word) : Option OscCtrl :=
  match Wave.ofCode (fieldOf v 1 4), BandLimit.ofCode (fieldOf v 5 2) with
  | some w, some b => some ⟨bitOf v 0, w, b, Fin.ofNat 4 (fieldOf v 7 2), bitOf v 9, bitOf v 10, Fin.ofNat 8 (fieldOf v 11 3)⟩
  | _, _ => none

/-- `OSC_CTRL` as it reads. -/
def OscCtrl.toWord (c : OscCtrl) : Word :=
  BitVec.ofNat 64 (bitAt c.en 0 + c.wave.code * 2 ^ 1 + c.bl.code * 2 ^ 5 + c.ovs.val * 2 ^ 7 + bitAt c.sync 9
    + bitAt c.ring 10 + c.fmAlg.val * 2 ^ 11)

/-- `FILT_CTRL` (10_state.md R45). -/
structure FiltCtrl where
  topo : Topology
  resp : Response
  onePole : Bool
  /-- `FOVS`, meaning the factor `2 ^ FOVS`. -/
  fovs : Fin 4
  deriving DecidableEq, Repr

/-- The fields of a value written to `FILT_CTRL`, refused with a reserved `TOPO`. -/
def FiltCtrl.ofWord (v : Word) : Option FiltCtrl :=
  match Topology.ofCode (fieldOf v 0 3), Response.ofCode (fieldOf v 3 2) with
  | some t, some r => some ⟨t, r, bitOf v 5, Fin.ofNat 4 (fieldOf v 6 2)⟩
  | _, _ => none

/-- `FILT_CTRL` as it reads. -/
def FiltCtrl.toWord (c : FiltCtrl) : Word :=
  BitVec.ofNat 64 (c.topo.code + c.resp.code * 2 ^ 3 + bitAt c.onePole 5 + c.fovs.val * 2 ^ 6)

/-- `DLY_CTRL` (10_state.md R48). -/
structure DlyCtrl where
  mode : DelayMode
  pingPong : Bool
  sync : Bool
  div : Division
  deriving DecidableEq, Repr

/-- The fields of a value written to `DLY_CTRL`, refused with a reserved `MODE` or `DIV`. -/
def DlyCtrl.ofWord (v : Word) : Option DlyCtrl :=
  match DelayMode.ofCode (fieldOf v 0 3), Division.ofCode (fieldOf v 5 4) with
  | some m, some d => some ⟨m, bitOf v 3, bitOf v 4, d⟩
  | _, _ => none

/-- `DLY_CTRL` as it reads. -/
def DlyCtrl.toWord (c : DlyCtrl) : Word :=
  BitVec.ofNat 64 (c.mode.code + bitAt c.pingPong 3 + bitAt c.sync 4 + c.div.code * 2 ^ 5)

/-- `EFX_CTRL` (10_state.md R52). -/
structure EfxCtrl where
  mode : EffectMode
  resp : Response
  deriving DecidableEq, Repr

/-- The fields of a value written to `EFX_CTRL`, refused with `MODE = 3`. -/
def EfxCtrl.ofWord (v : Word) : Option EfxCtrl :=
  match EffectMode.ofCode (fieldOf v 0 2), Response.ofCode (fieldOf v 2 2) with
  | some m, some r => some ⟨m, r⟩
  | _, _ => none

/-- `EFX_CTRL` as it reads. -/
def EfxCtrl.toWord (c : EfxCtrl) : Word := BitVec.ofNat 64 (c.mode.code + c.resp.code * 2 ^ 2)

end Sys2Proof.Machine
end

