-- ==== Sys2Proof/Config.lean ====
section
/-! DEFINITION. What the spec leaves to the implementation, as constants with no body. Machine/Params.lean turns
them into the parameters a block is built with, inside the constraints the spec puts on them. -/

namespace Sys2Proof.Config

/-- The sample rate `FS`, before its constraint (00_scope.md R7). Log 2. -/
opaque fsRaw : BitVec 64

/-- `MAXDLY` before its constraint (00_scope.md R8). Log 2. -/
opaque maxDlyRaw : Nat

/-- `MAXCOMB` before its constraint (00_scope.md R8). Log 2. -/
opaque maxCombRaw : Nat

/-- `MAXFIR` before its constraint (00_scope.md R8). Log 2. -/
opaque maxFirRaw : Nat

/-- `VOWEL_TABLE` before its constraints: vowel code, formant 0..2, column 0 frequency, 1 bandwidth, 2 gain
(00_scope.md R10, 42_filters.md R255). Log 3. -/
opaque vowelRaw : Nat → Nat → Nat → BitVec 64

/-- `Sin` before the properties of 00_scope.md R18. Log 4. -/
opaque sinRaw : BitVec 64 → BitVec 64

/-- `Cos` before the properties of 00_scope.md R18. Log 4. -/
opaque cosRaw : BitVec 64 → BitVec 64

/-- `Tan` before the properties of 00_scope.md R18. Log 4. -/
opaque tanRaw : BitVec 64 → BitVec 64

/-- `Tanh` before the properties of 00_scope.md R18. Log 4. -/
opaque tanhRaw : BitVec 64 → BitVec 64

/-- `Exp2` before the properties of 00_scope.md R18. Log 4. -/
opaque exp2Raw : BitVec 64 → BitVec 64

/-- `Pow` before the properties of 00_scope.md R18. Log 4. -/
opaque powRaw : BitVec 64 → BitVec 64 → BitVec 64

/-- The sign and payload of a NaN result, a free value: operation number and operands (00_scope.md R17,
93_implementation_defined.md I9). Log 5. -/
opaque nanBits : Nat → BitVec 64 → BitVec 64 → BitVec 64

/-- What a 64-bit register reads for a number of `2 ^ 64` or more, a free value: no rule bounds the sizes from above
(00_scope.md R8). Log 14. -/
opaque wideBits : Nat → BitVec 64

/-- `ToInt` of a NaN or an infinity, a free value: 00_scope.md R15 defines it on finite values only. Log 6. -/
opaque toIntOpen : BitVec 64 → Int

end Sys2Proof.Config
end

