-- ==== Sys2Proof/Machine/Binary64.lean ====
section
/-! DEFINITION. IEEE 754 binary64 arithmetic on 64-bit patterns, exact integers rounded once (00_scope.md R14 to R17):
round to nearest, ties to even, subnormals kept, no flags. -/

namespace Sys2Proof.Machine

/-- The biased exponent, bits 62:52 (20_memory.md R85). -/
def expField (x : F64) : Nat := x.toNat / 2 ^ 52 % 2 ^ 11

/-- The fraction, bits 51:0. -/
def fracField (x : F64) : Nat := x.toNat % 2 ^ 52

/-- The sign, bit 63. -/
def signBit (x : F64) : Bool := x.msb

/-- Bits 62:0 as a number; on non-NaN values it rises with the magnitude. -/
def magnitude (x : F64) : Nat := x.toNat % 2 ^ 63

/-- A NaN: exponent field all ones, fraction not 0. -/
def isNaN (x : F64) : Bool := expField x == 2047 && fracField x != 0

/-- An infinity: exponent field all ones, fraction 0. -/
def isInf (x : F64) : Bool := expField x == 2047 && fracField x == 0

/-- Neither a NaN nor an infinity. -/
def isFinite (x : F64) : Bool := expField x != 2047

/-- A zero of either sign. -/
def isZero (x : F64) : Bool := magnitude x == 0

/-- The integer significand of a finite value: the hidden bit is present unless the exponent field is 0. -/
def significand (x : F64) : Nat := if expField x = 0 then fracField x else 2 ^ 52 + fracField x

/-- The power of two the significand of a finite value counts. -/
def exponent (x : F64) : Int := (max (expField x) 1 : Nat) - 1075

/-- `m` with the sign `neg`. -/
def signedInt (neg : Bool) (m : Nat) : Int := if neg then -(m : Int) else m

/-- The pattern with sign `neg` and bits 62:0 `mag`. -/
def ofMagnitude (neg : Bool) (mag : Nat) : F64 := BitVec.ofNat 64 ((if neg then 2 ^ 63 else 0) + mag)

/-- A zero of sign `neg`. -/
def signedZero (neg : Bool) : F64 := ofMagnitude neg 0

/-- Bits 62:0 of an infinity. -/
def infMagnitude : Nat := 2047 * 2 ^ 52

/-- An infinity of sign `neg`. -/
def signedInf (neg : Bool) : F64 := ofMagnitude neg infMagnitude

/-- `m / 2 ^ k` rounded to the nearest integer, ties to even (00_scope.md R14). -/
def roundShift (m k : Nat) : Nat :=
  let q := m / 2 ^ k
  let twice := 2 * (m % 2 ^ k)
  if 2 ^ k < twice then q + 1 else if twice = 2 ^ k ∧ q % 2 = 1 then q + 1 else q

/-- The spacing exponent of binary64 values of the size of `m * 2 ^ e`: 53 significant bits, never below -1074. -/
def quantum (m : Nat) (e : Int) : Int := max (e + m.log2 - 52) (-1074)

/-- The binary64 value nearest to `m * 2 ^ e` with sign `neg`, ties to even (00_scope.md R14). With spacing exponent `q`
and rounded significand `r`, bits 62:0 are `(q + 1074) * 2 ^ 52 + r`, for normal and subnormal results alike; a value
past the largest finite one becomes the infinity. -/
def roundDyadic (neg : Bool) (m : Nat) (e : Int) : F64 :=
  if m = 0 then signedZero neg
  else
    let q := quantum m e
    let r := if q ≤ e then m * 2 ^ (e - q).toNat else roundShift m (q - e).toNat
    ofMagnitude neg (min ((q + 1074).toNat * 2 ^ 52 + r) infMagnitude)

/-- The binary64 value nearest to `(n / d) * 2 ^ e`, `d` not 0: the quotient to at least 55 bits, its last bit standing
for a nonzero remainder, rounded once. -/
def roundRatio (neg : Bool) (n d : Nat) (e : Int) : F64 :=
  let k := d.log2 + 56 - n.log2
  let q := n * 2 ^ k / d
  let sticky := if n * 2 ^ k % d = 0 then 0 else 1
  roundDyadic neg (2 * q + sticky) (e - k - 1)

/-- The arithmetic operations a NaN result is named by in `Config.nanBits`. -/
inductive FOp where
  | add | sub | mul | div | neg
  deriving DecidableEq, Repr

/-- The number of an operation in `Config.nanBits`. -/
def FOp.number : FOp → Nat
  | .add => 0
  | .sub => 1
  | .mul => 2
  | .div => 3
  | .neg => 4

/-- The NaN whose sign is bit 63 of `x` and whose fraction is bits 51:0 of `x`, a fraction of 0 replaced by `2 ^ 51`:
every NaN pattern is one of these and each of these is a NaN. -/
def nanOfBits (x : BitVec 64) : F64 :=
  ofMagnitude x.msb (infMagnitude + if fracField x = 0 then 2 ^ 51 else fracField x)

/-- The NaN that an operation gives: its sign and payload are free (00_scope.md R17, I9). DESIGN CHOICE (log 5): one
pattern per operation and operands. Unsafe for claims on patterns of two NaN results. -/
def nanResult (op : FOp) (a b : F64) : F64 := nanOfBits (Config.nanBits op.number a b)

/-- The exact sum of two finite values as an integer times `2 ^ min`, rounded; an exact 0 is negative only when both
operands are. -/
def addFinite (a b : F64) : F64 :=
  let e := min (exponent a) (exponent b)
  let n := signedInt (signBit a) (significand a) * 2 ^ (exponent a - e).toNat
    + signedInt (signBit b) (significand b) * 2 ^ (exponent b - e).toNat
  if n = 0 then signedZero (signBit a && signBit b) else roundDyadic (decide (n < 0)) n.natAbs e

/-- The sign bit inverted, no other bit changed. -/
def flipSign (x : F64) : F64 := x ^^^ 0x8000000000000000#64

/-- The sum where no operand is a NaN; `none` where it is an invalid operation. -/
def addNumber (a b : F64) : Option F64 :=
  if isInf a then (if isInf b && signBit a != signBit b then none else some a)
  else if isInf b then some b
  else some (addFinite a b)

/-- `a + b` (00_scope.md R14, R17). -/
def fadd (a b : F64) : F64 :=
  if isNaN a || isNaN b then nanResult .add a b else (addNumber a b).getD (nanResult .add a b)

/-- `a - b` (00_scope.md R14, R17). -/
def fsub (a b : F64) : F64 :=
  if isNaN a || isNaN b then nanResult .sub a b else (addNumber a (flipSign b)).getD (nanResult .sub a b)

/-- `a * b` (00_scope.md R14, R17). -/
def fmul (a b : F64) : F64 :=
  let neg := signBit a != signBit b
  if isNaN a || isNaN b then nanResult .mul a b
  else if isInf a || isInf b then
    (if isZero a || isZero b then nanResult .mul a b else signedInf neg)
  else roundDyadic neg (significand a * significand b) (exponent a + exponent b)

/-- `a / b` (00_scope.md R14, R17): a nonzero value over a zero is the signed infinity. -/
def fdiv (a b : F64) : F64 :=
  let neg := signBit a != signBit b
  if isNaN a || isNaN b then nanResult .div a b
  else if isInf a then (if isInf b then nanResult .div a b else signedInf neg)
  else if isInf b then signedZero neg
  else if isZero b then (if isZero a then nanResult .div a b else signedInf neg)
  else roundRatio neg (significand a) (significand b) (exponent a - exponent b)

/-- Unary minus: the sign inverted; of a NaN, a NaN (log 5). -/
def fneg (a : F64) : F64 := if isNaN a then nanResult .neg a a else flipSign a

/-- A number that orders the non-NaN values, the two zeros equal. -/
def orderKey (x : F64) : Int := signedInt (signBit x) (magnitude x)

/-- `a < b`, false when either is a NaN (00_scope.md R15). -/
def flt (a b : F64) : Bool := !isNaN a && !isNaN b && decide (orderKey a < orderKey b)

/-- `a <= b`, false when either is a NaN. -/
def fle (a b : F64) : Bool := !isNaN a && !isNaN b && decide (orderKey a ≤ orderKey b)

/-- `a = b` as numbers: the zeros are equal, a NaN equals nothing. -/
def feq (a b : F64) : Bool := !isNaN a && !isNaN b && decide (orderKey a = orderKey b)

/-- `min(a, b)`: `a` if `a < b`, else `b` (00_scope.md R15). -/
def fmin (a b : F64) : F64 := if flt a b then a else b

/-- `max(a, b)`: `a` if `a > b`, else `b`. -/
def fmax (a b : F64) : F64 := if flt b a then a else b

/-- `clamp(v, lo, hi)`; a NaN `v` is returned unchanged. -/
def fclamp (v lo hi : F64) : F64 := if flt v lo then lo else if flt hi v then hi else v

/-- The greatest integer not above a finite value. -/
def floorInt (x : F64) : Int :=
  let n := signedInt (signBit x) (significand x)
  if 0 ≤ exponent x then n * 2 ^ (exponent x).toNat else n / 2 ^ (-exponent x).toNat

/-- `Float(n)`: the nearest binary64 value of an integer, exact for `|n| < 2 ^ 53` (00_scope.md R15). DEDUCED (log 14) from
`2 ^ 53` on, which only a memory of that size or more brings about; unsafe there. -/
def ofInt (n : Int) : F64 := roundDyadic (decide (n < 0)) n.natAbs 0

/-- `Floor(x)`. DESIGN CHOICE (log 7): a zero, an infinity and a NaN are their own floor. Safe where R15's domain holds. -/
def ffloor (x : F64) : F64 := if isFinite x && !isZero x then ofInt (floorInt x) else x

/-- `frac(x) = x - Floor(x)`. -/
def frac (x : F64) : F64 := fsub x (ffloor x)

/-- `ToInt(x)`: the integer `Floor(x)` of a finite value; a free integer otherwise (log 6). -/
def toInt (x : F64) : Int := if isFinite x then floorInt x else Config.toIntOpen x

/-- The integer clamp of 40_host_commands.md R135. -/
def iclamp (n lo hi : Int) : Int := if n < lo then lo else if hi < n then hi else n

/-- The binary64 value nearest to the decimal `n / 10 ^ k` (00_scope.md R14: a decimal literal). -/
def dec (n : Nat) (k : Nat) : F64 := if n = 0 then 0 else roundRatio false n (10 ^ k) 0

/-- The decimal `-(n / 10 ^ k)`. -/
def decNeg (n : Nat) (k : Nat) : F64 := flipSign (dec n k)

/-- `0.0`. -/
def f0 : F64 := 0x0000000000000000#64
/-- `0.5`. -/
def fHalf : F64 := 0x3FE0000000000000#64
/-- `1.0`. -/
def f1 : F64 := 0x3FF0000000000000#64
/-- `-1.0`. -/
def fNeg1 : F64 := 0xBFF0000000000000#64
/-- `2.0`. -/
def f2 : F64 := 0x4000000000000000#64
/-- `-2.0`. -/
def fNeg2 : F64 := 0xC000000000000000#64
/-- `4.0`. -/
def f4 : F64 := 0x4010000000000000#64
/-- `PI` (00_scope.md R14). -/
def fPi : F64 := 0x400921FB54442D18#64
/-- `TWO_PI` (00_scope.md R14). -/
def fTwoPi : F64 := 0x401921FB54442D18#64
/-- `2147483648.0`, that is `2 ^ 31`. -/
def fTwo31 : F64 := 0x41E0000000000000#64

end Sys2Proof.Machine
end

