-- ==== Sys2Proof/Machine/Memory.lean ====
section
/-! DEFINITION. Internal memories of binary64 elements indexed from 0 (20_memory.md R80 to R82). -/

namespace Sys2Proof.Machine

/-- An internal memory: (index, element) pairs, indices strictly rising, no element equal to `memDefault`. The element
is the spec's smallest addressable unit (20_memory.md R86). Log 8. -/
abbrev Mem := List (Nat × F64)

/-- What an unlisted index reads as: the `+0.0` that R80 gives every line and history at reset. -/
def memDefault : F64 := 0#64

/-- `MemRead` (00_scope.md R12). -/
def memRead : Mem → Nat → F64
  | [], _ => memDefault
  | (j, v) :: rest, i => if j = i then v else memRead rest i

/-- One element put in front, left out where it is what an unlisted index reads as. -/
def memCons (i : Nat) (v : F64) (rest : Mem) : Mem := if v = memDefault then rest else (i, v) :: rest

/-- `MemWrite` (00_scope.md R12); the canonical form is kept. -/
def memWrite : Mem → Nat → F64 → Mem
  | [], i, v => memCons i v []
  | (j, w) :: rest, i, v =>
    if i < j then memCons i v ((j, w) :: rest)
    else if i = j then memCons i v rest
    else (j, w) :: memWrite rest i v

/-- The canonical form with every index at least `lo` and below `size`. -/
def memWfFrom (lo size : Nat) : Mem → Bool
  | [] => true
  | (j, v) :: rest => decide (lo ≤ j) && decide (j < size) && v != memDefault && memWfFrom (j + 1) size rest

/-- `Memory.wf`: the canonical form, every index below the memory's size (20_memory.md R81). -/
def memWf (size : Nat) (m : Mem) : Bool := memWfFrom 0 size m

/-- `i mod n`, the non-negative remainder (00_scope.md R16). -/
def modIndex (i : Int) (n : Nat) : Nat := (i % (n : Int)).toNat

/-- The next write index of a circular line of `n` elements (20_memory.md R82). -/
def nextIndex (i n : Nat) : Nat := (i + 1) % n

end Sys2Proof.Machine
end

