-- ==== Sys2Proof/Machine/Noise.lean ====
section
/-! DEFINITION. The xorshift noise generator (41_oscillators.md R185), shared by the oscillators, the BBD
(43_delay_lines.md R303) and the impulse response (44_effect_filters.md R345). -/

namespace Sys2Proof.Machine

/-- One xorshift step (41_oscillators.md R185). -/
def xorshift (x : U32) : U32 :=
  let a := x ^^^ (x <<< 13)
  let b := a ^^^ (a >>> 17)
  b ^^^ (b <<< 5)

/-- A generator state as a sample: `Float(x) / 2147483648.0 - 1.0` (41_oscillators.md R185). -/
def noiseValue (x : U32) : F64 := fsub (fdiv (ofInt x.toNat) fTwo31) f1

end Sys2Proof.Machine
end

