-- ==== Sys2Proof/Machine/Params.lean ====
section
/-! DEFINITION. The arguments a block is built with (00_scope.md R7, R8, R10, R18) and the constraints on them. The open
constants of Config are taken into the constraints by construction: any admissible value or function is the result of
itself, so nothing the spec allows is lost and nothing else can be proved. Logs 2, 3, 4. -/

namespace Sys2Proof.Machine

/-- The five vowels of `VOWEL_TABLE` (42_filters.md R255). -/
inductive Vowel where
  | a | e | i | o | u
  deriving DecidableEq, Repr

/-- The vowel codes (30_encoding.md R103). -/
def Vowel.code : Vowel → Nat
  | .a => 0
  | .e => 1
  | .i => 2
  | .o => 3
  | .u => 4

/-- A formant triple: centre frequency, bandwidth, gain (00_scope.md R10). -/
structure Formant where
  freq : F64
  bw : F64
  gain : F64
  deriving DecidableEq, Repr

/-- The model's arguments (00_scope.md R7, R8, R10, R18). Not state (10_state.md R57). -/
structure Params where
  /-- `FS` -/
  fs : F64
  /-- `MAXDLY` -/
  maxDly : Nat
  /-- `MAXCOMB` -/
  maxComb : Nat
  /-- `MAXFIR` -/
  maxFir : Nat
  /-- `VOWEL_TABLE[v][k]` -/
  vowel : Vowel → Fin 3 → Formant
  sin : F64 → F64
  cos : F64 → F64
  tan : F64 → F64
  tanh : F64 → F64
  exp2 : F64 → F64
  pow : F64 → F64 → F64

/-- `0.49 * PI`, the end of the range of `TanPos` (00_scope.md R18). -/
def tanLimit : F64 := fmul (dec 49 2) fPi

/-- `r` if it is in `[lo, hi]`, else `other`. -/
def within (lo hi other r : F64) : F64 := if fle lo r && fle r hi then r else other

/-- The register ranges of a formant triple (10_state.md R44). -/
def inRange (lo hi x : F64) : Bool := fle lo x && fle x hi

/-- `2 ^ n` for `-1074 <= n <= 1023`. -/
def powerOfTwo (n : Int) : F64 := roundDyadic false 1 n

/-- A `Sin` with `SinZero` and `SinBound`, from any function. -/
def sinOf (raw : F64 → F64) (x : F64) : F64 :=
  if x = f0 then f0 else if isFinite x then within fNeg1 f1 f0 (raw x) else raw x

/-- A `Cos` with `CosZero` and `CosBound`, from any function. -/
def cosOf (raw : F64 → F64) (x : F64) : F64 :=
  if x = f0 then f1 else if isFinite x then within fNeg1 f1 f0 (raw x) else raw x

/-- A `Tan` with `TanZero` and `TanPos`, from any function. -/
def tanOf (raw : F64 → F64) (x : F64) : F64 :=
  if x = f0 then f0
  else if flt f0 x && fle x tanLimit then (if flt f0 (raw x) then raw x else f1) else raw x

/-- A `Tanh` with `TanhZero`, `TanhBound` and `TanhOdd`, from any function: `raw` is read at positive arguments. DESIGN
CHOICE (log 4): the `=` of `TanhOdd` is taken as equality of patterns, not as the IEEE comparison of 00_scope.md R15 that
equates the two zeros. So `Tanh(-0.0)` is `-0.0`, and a zero result for `x` has the opposite sign for `-x`. Unsafe for
claims on the sign of a zero `Tanh`. -/
def tanhOf (raw : F64 → F64) (x : F64) : F64 :=
  if isNaN x then raw x
  else if isZero x then x
  else if signBit x then flipSign (within fNeg1 f1 f0 (raw (flipSign x)))
  else within fNeg1 f1 f0 (raw x)

/-- An `Exp2` with `Exp2Int`, from any function. -/
def exp2Of (raw : F64 → F64) (x : F64) : F64 :=
  if isFinite x && ofInt (floorInt x) == x && decide (-1074 ≤ floorInt x) && decide (floorInt x ≤ 1023) then
    powerOfTwo (floorInt x)
  else raw x

/-- A `Pow` with `PowOne` and `PowBase`, from any function. -/
def powOf (raw : F64 → F64 → F64) (b e : F64) : F64 :=
  if e = f0 then f1
  else if flt f0 b && fle b f1 && fle f0 e then within f0 f1 f0 (raw b e) else raw b e

/-- A value in `[lo, hi]`: `x` where it is, the nearer end where it is not, `lo` for a NaN. -/
def rangedOf (lo hi x : F64) : F64 := if isNaN x then lo else fclamp x lo hi

/-- A sample rate with the constraint of 00_scope.md R7: `x` where it is finite and at least 8000, else the reference
value 48000. -/
def sampleRateOf (x : F64) : F64 := if isFinite x && fle (ofInt 8000) x then x else ofInt 48000

/-- A size of at least `least`, with no upper bound (00_scope.md R8). -/
def sizeOf (least n : Nat) : Nat := max least n

/-- A formant triple in the ranges of 10_state.md R44. -/
def formantOf (raw : Nat → F64) : Formant :=
  ⟨rangedOf (ofInt 20) (ofInt 20000) (raw 0), rangedOf f1 (ofInt 20000) (raw 1), rangedOf f0 f1 (raw 2)⟩

/-- The arguments this block is built with. -/
def theParams : Params where
  fs := sampleRateOf Config.fsRaw
  maxDly := sizeOf 4 Config.maxDlyRaw
  maxComb := sizeOf 2 Config.maxCombRaw
  maxFir := sizeOf 1 Config.maxFirRaw
  vowel := fun v k => formantOf (Config.vowelRaw v.code k.val)
  sin := sinOf Config.sinRaw
  cos := cosOf Config.cosRaw
  tan := tanOf Config.tanRaw
  tanh := tanhOf Config.tanhRaw
  exp2 := exp2Of Config.exp2Raw
  pow := powOf Config.powRaw

/-- The constraints on the parameters: 00_scope.md R7, R8, R10 and the named properties of R18. `TanhOdd` is stated on
non-NaN arguments, the sign of a NaN being free (R17), and as equality of patterns (DESIGN CHOICE, log 4). -/
structure Params.Valid (P : Params) : Prop where
  fs_finite : isFinite P.fs = true
  fs_least : fle (ofInt 8000) P.fs = true
  maxDly_least : 4 ≤ P.maxDly
  maxComb_least : 2 ≤ P.maxComb
  maxFir_least : 1 ≤ P.maxFir
  vowel_freq : ∀ v k, inRange (ofInt 20) (ofInt 20000) (P.vowel v k).freq = true
  vowel_bw : ∀ v k, inRange f1 (ofInt 20000) (P.vowel v k).bw = true
  vowel_gain : ∀ v k, inRange f0 f1 (P.vowel v k).gain = true
  sinZero : P.sin f0 = f0
  sinBound : ∀ x, isFinite x = true → inRange fNeg1 f1 (P.sin x) = true
  cosZero : P.cos f0 = f1
  cosBound : ∀ x, isFinite x = true → inRange fNeg1 f1 (P.cos x) = true
  tanZero : P.tan f0 = f0
  tanPos : ∀ x, flt f0 x = true → fle x tanLimit = true → flt f0 (P.tan x) = true
  tanhZero : P.tanh f0 = f0
  tanhBound : ∀ x, isNaN x = false → inRange fNeg1 f1 (P.tanh x) = true
  tanhOdd : ∀ x, isNaN x = false → P.tanh (fneg x) = fneg (P.tanh x)
  exp2Int : ∀ n : Int, -1074 ≤ n → n ≤ 1023 → P.exp2 (ofInt n) = powerOfTwo n
  powOne : ∀ b, P.pow b f0 = f1
  powBase : ∀ b e, flt f0 b = true → fle b f1 = true → fle f0 e = true → inRange f0 f1 (P.pow b e) = true

end Sys2Proof.Machine
end

