-- ==== Sys2Proof/Machine/Impulse.lean ====
section
/-! DEFINITION. The reverb impulse response (44_effect_filters.md R345). -/

namespace Sys2Proof.Machine

/-- `L = clamp(ToInt(REV_DECAY * FS), 1, MAXFIR)`. -/
def irLength (P : Params) (decay : F64) : Nat := (iclamp (toInt (fmul decay P.fs)) 1 P.maxFir).toNat

/-- A FIR length as `FIR_LEN_L` and `FIR_LEN_R` hold it: an I64 register is clamped, never wrapped (00_scope.md R16).
DEDUCED (log 14) for a length of `2 ^ 63` or more, which only a larger `MAXFIR` allows; unsafe there. -/
def firLenWord (len : Nat) : Word := BitVec.ofNat 64 (min len (2 ^ 63 - 1))

/-- Tap `i` of a response of length `len`, from the generator state `x` drawn for it: `n * (a * a) * Pow(e, d)`. -/
def irTap (P : Params) (damp : F64) (len i : Nat) (x : U32) : F64 :=
  let a := fdiv (ofInt ((len : Int) - i)) (ofInt len)
  let e := fsub f1 (fdiv (ofInt i) (ofInt len))
  fmul (fmul (noiseValue x) (fmul a a)) (P.pow e (fmul damp (ofInt 10)))

/-- The taps from `i` on, `remaining` of them, from the generator state `x` before the first draw. The elements at
`len` and above are written `+0.0`, so they are not listed. -/
def irTaps (P : Params) (damp : F64) (len : Nat) : (remaining i : Nat) → U32 → Mem
  | 0, _, _ => []
  | remaining + 1, i, x =>
    memCons i (irTap P damp len i (xorshift x)) (irTaps P damp len remaining (i + 1) (xorshift x))

/-- The whole coefficient memory of one channel after a generation from `seed`. -/
def impulseResponse (P : Params) (decay damp : F64) (seed : U32) : Mem :=
  irTaps P damp (irLength P decay) (irLength P decay) 0 seed

end Sys2Proof.Machine
end

