-- ==== Sys2Proof/Machine/Registers.lean ====
section
/-! DEFINITION. The parameter (P) and modulation (M) registers: their banks, names, types, ranges and reset values
(10_state.md R30, R32, R34, R39, R44, R50, R56). -/

namespace Sys2Proof.Machine

/-- The P registers of one oscillator channel (10_state.md R39). `OCT`, `SEMI`, `WT_HARM` are two's complement. -/
structure OscP where
  ctrl : OscCtrl
  freq : F64
  oct : Word
  semi : Word
  detune : F64
  gain : F64
  pw : F64
  phaseOfs : F64
  pdAmt : F64
  wtHarm : Word
  fmIndex : F64
  fmFb : F64
  fmRatio : Vector F64 4
  fmLevel : Vector F64 4
  modDepth : F64
  noiseSeed : U32
  deriving DecidableEq, Repr

/-- The P registers of the voice filter (10_state.md R44). -/
structure FiltP where
  ctrl : FiltCtrl
  cutoff : F64
  res : F64
  drive : F64
  keytrack : F64
  noteFreq : F64
  envAmt : F64
  lfoAmt : F64
  combTime : F64
  combFb : F64
  combDamp : F64
  formant : Vector Formant 3
  deriving DecidableEq, Repr

/-- The P registers of the delay-line unit (10_state.md R50). `BBD_STAGES` is two's complement. -/
structure DlyP where
  ctrl : DlyCtrl
  dtime : F64
  dfb : F64
  dmix : F64
  dwidth : F64
  chRate : F64
  chDepth : F64
  chDelay : F64
  chRatio : F64
  bbdStages : Word
  bbdClock : F64
  bbdLpf : F64
  bbdNoise : F64
  wowRate : F64
  wowDepth : F64
  flutRate : F64
  flutDepth : F64
  noiseSeed : U32
  deriving DecidableEq, Repr

/-- The P registers of the effect-filter unit (10_state.md R56). `PH_STAGES`, `FIR_LEN_L`, `FIR_LEN_R` are two's
complement. -/
structure EfxP where
  ctrl : EfxCtrl
  eqFreq : F64
  eqQ : F64
  emix : F64
  phStages : Word
  phRate : F64
  phMin : F64
  phMax : F64
  phFb : F64
  revDecay : F64
  revDamp : F64
  firLenL : Word
  firLenR : Word
  irSeedL : U32
  irSeedR : U32
  deriving DecidableEq, Repr

/-- One copy of every P register (10_state.md R30, R57). -/
structure PBank where
  ctrl : Ctrl
  bpm : F64
  osc : Vector OscP 4
  filt : FiltP
  dly : DlyP
  efx : EfxP
  deriving DecidableEq, Repr

/-- One copy of every M register (10_state.md R34). -/
structure MBank where
  amp : F64
  modIn : Vector F64 4
  envIn : F64
  lfoIn : F64
  deriving DecidableEq, Repr

/-- The names of a channel's P registers (10_state.md R39); operator `j` of the spec is `j - 1` here. -/
inductive OscReg where
  | oscCtrl | freq | oct | semi | detune | gain | pw | phaseOfs | pdAmt | wtHarm | fmIndex | fmFb
  | fmRatio (j : Fin 4) | fmLevel (j : Fin 4) | modDepth | noiseSeed
  deriving DecidableEq, Repr

/-- The names of the voice filter's P registers (10_state.md R44); formant `k` of the spec is `k - 1` here. -/
inductive FiltReg where
  | filtCtrl | cutoff | res | drive | keytrack | noteFreq | envAmt | lfoAmt | combTime | combFb | combDamp
  | formFreq (k : Fin 3) | formBw (k : Fin 3) | formGain (k : Fin 3)
  deriving DecidableEq, Repr

/-- The names of the delay-line unit's P registers (10_state.md R50). -/
inductive DlyReg where
  | dlyCtrl | dtime | dfb | dmix | dwidth | chRate | chDepth | chDelay | chRatio | bbdStages | bbdClock | bbdLpf
  | bbdNoise | wowRate | wowDepth | flutRate | flutDepth | dnoiseSeed
  deriving DecidableEq, Repr

/-- The names of the effect-filter unit's P registers (10_state.md R56). -/
inductive EfxReg where
  | efxCtrl | eqFreq | eqQ | emix | phStages | phRate | phMin | phMax | phFb | revDecay | revDamp | firLenL | firLenR
  | irSeedL | irSeedR
  deriving DecidableEq, Repr

/-- The names of the P registers. -/
inductive PReg where
  | ctrl
  | bpm
  | osc (c : Chan) (r : OscReg)
  | filt (r : FiltReg)
  | dly (r : DlyReg)
  | efx (r : EfxReg)
  deriving DecidableEq, Repr

/-- The names of the M registers (10_state.md R34). -/
inductive MReg where
  | amp
  | modIn (c : Chan)
  | envIn
  | lfoIn
  deriving DecidableEq, Repr

/-- The type of a register with its range (00_scope.md R20, 40_host_commands.md R135). -/
inductive RegKind where
  /-- binary64, clamped into `[lo, hi]` -/
  | f64 (lo hi : F64)
  /-- two's complement, clamped into `[lo, hi]` -/
  | i64 (lo hi : Int)
  /-- a 32-bit seed, 0 refused -/
  | seed
  | ctrl
  | oscCtrl
  | filtCtrl
  | dlyCtrl
  | efxCtrl
  deriving DecidableEq, Repr

/-- A binary64 range with integral ends. -/
def f64Range (lo hi : Int) : RegKind := .f64 (ofInt lo) (ofInt hi)

/-- The `type` and `range` columns of 10_state.md R39. -/
def OscReg.kind : OscReg → RegKind
  | .oscCtrl => .oscCtrl
  | .freq => f64Range 0 20000
  | .oct => .i64 (-3) 3
  | .semi => .i64 (-12) 12
  | .detune => f64Range (-100) 100
  | .gain => f64Range 0 1
  | .pw => .f64 (dec 1 2) (dec 99 2)
  | .phaseOfs => f64Range 0 1
  | .pdAmt => .f64 f0 (dec 99 2)
  | .wtHarm => .i64 1 64
  | .fmIndex => f64Range 0 16
  | .fmFb => f64Range 0 4
  | .fmRatio _ => .f64 (dec 625 4) (ofInt 32)
  | .fmLevel _ => f64Range 0 1
  | .modDepth => f64Range (-48) 48
  | .noiseSeed => .seed

/-- The `type` and `range` columns of 10_state.md R44. -/
def FiltReg.kind : FiltReg → RegKind
  | .filtCtrl => .filtCtrl
  | .cutoff => f64Range 20 20000
  | .res => f64Range 0 1
  | .drive => f64Range 0 10
  | .keytrack => f64Range 0 1
  | .noteFreq => f64Range 0 20000
  | .envAmt => f64Range (-1) 1
  | .lfoAmt => f64Range (-1) 1
  | .combTime => f64Range 0 1
  | .combFb => .f64 (decNeg 99 2) (dec 99 2)
  | .combDamp => f64Range 0 1
  | .formFreq _ => f64Range 20 20000
  | .formBw _ => f64Range 1 20000
  | .formGain _ => f64Range 0 1

/-- The `type` and `range` columns of 10_state.md R50. -/
def DlyReg.kind : DlyReg → RegKind
  | .dlyCtrl => .dlyCtrl
  | .dtime => f64Range 0 10
  | .dfb => .f64 f0 (dec 99 2)
  | .dmix => f64Range 0 1
  | .dwidth => f64Range 0 1
  | .chRate => .f64 (dec 1 2) (ofInt 10)
  | .chDepth => .f64 f0 (dec 2 2)
  | .chDelay => .f64 (dec 1 3) (dec 5 2)
  | .chRatio => f64Range 1 2
  | .bbdStages => .i64 1 8192
  | .bbdClock => f64Range 100 1000000
  | .bbdLpf => f64Range 20 20000
  | .bbdNoise => .f64 f0 (dec 1 1)
  | .wowRate => .f64 (dec 1 2) (ofInt 5)
  | .wowDepth => .f64 f0 (dec 1 2)
  | .flutRate => f64Range 1 30
  | .flutDepth => .f64 f0 (dec 2 3)
  | .dnoiseSeed => .seed

/-- The `type` and `range` columns of 10_state.md R56; the FIR lengths end at `MAXFIR`. -/
def EfxReg.kind (P : Params) : EfxReg → RegKind
  | .efxCtrl => .efxCtrl
  | .eqFreq => f64Range 20 20000
  | .eqQ => .f64 (dec 1 1) (ofInt 25)
  | .emix => f64Range 0 1
  | .phStages => .i64 2 12
  | .phRate => .f64 (dec 1 2) (ofInt 10)
  | .phMin => f64Range 20 20000
  | .phMax => f64Range 20 20000
  | .phFb => .f64 f0 (dec 95 2)
  | .revDecay => .f64 (dec 1 4) (ofInt 100)
  | .revDamp => f64Range 0 1
  | .firLenL => .i64 1 P.maxFir
  | .firLenR => .i64 1 P.maxFir
  | .irSeedL => .seed
  | .irSeedR => .seed

/-- The type and range of a P register. -/
def PReg.kind (P : Params) : PReg → RegKind
  | .ctrl => .ctrl
  | .bpm => f64Range 1 300
  | .osc _ r => r.kind
  | .filt r => r.kind
  | .dly r => r.kind
  | .efx r => r.kind P

/-- The range of an M register (10_state.md R32, R39, R44). -/
def MReg.kind : MReg → RegKind
  | .amp => f64Range 0 1
  | .modIn _ => f64Range (-1) 1
  | .envIn => f64Range (-1) 1
  | .lfoIn => f64Range (-1) 1

/-- A channel's P register as its 64 bits. -/
def OscP.read (p : OscP) : OscReg → Word
  | .oscCtrl => p.ctrl.toWord
  | .freq => p.freq
  | .oct => p.oct
  | .semi => p.semi
  | .detune => p.detune
  | .gain => p.gain
  | .pw => p.pw
  | .phaseOfs => p.phaseOfs
  | .pdAmt => p.pdAmt
  | .wtHarm => p.wtHarm
  | .fmIndex => p.fmIndex
  | .fmFb => p.fmFb
  | .fmRatio j => p.fmRatio[j]
  | .fmLevel j => p.fmLevel[j]
  | .modDepth => p.modDepth
  | .noiseSeed => p.noiseSeed.zeroExtend 64

/-- A filter P register as its 64 bits. -/
def FiltP.read (p : FiltP) : FiltReg → Word
  | .filtCtrl => p.ctrl.toWord
  | .cutoff => p.cutoff
  | .res => p.res
  | .drive => p.drive
  | .keytrack => p.keytrack
  | .noteFreq => p.noteFreq
  | .envAmt => p.envAmt
  | .lfoAmt => p.lfoAmt
  | .combTime => p.combTime
  | .combFb => p.combFb
  | .combDamp => p.combDamp
  | .formFreq k => p.formant[k].freq
  | .formBw k => p.formant[k].bw
  | .formGain k => p.formant[k].gain

/-- A delay-line P register as its 64 bits. -/
def DlyP.read (p : DlyP) : DlyReg → Word
  | .dlyCtrl => p.ctrl.toWord
  | .dtime => p.dtime
  | .dfb => p.dfb
  | .dmix => p.dmix
  | .dwidth => p.dwidth
  | .chRate => p.chRate
  | .chDepth => p.chDepth
  | .chDelay => p.chDelay
  | .chRatio => p.chRatio
  | .bbdStages => p.bbdStages
  | .bbdClock => p.bbdClock
  | .bbdLpf => p.bbdLpf
  | .bbdNoise => p.bbdNoise
  | .wowRate => p.wowRate
  | .wowDepth => p.wowDepth
  | .flutRate => p.flutRate
  | .flutDepth => p.flutDepth
  | .dnoiseSeed => p.noiseSeed.zeroExtend 64

/-- An effect-filter P register as its 64 bits. -/
def EfxP.read (p : EfxP) : EfxReg → Word
  | .efxCtrl => p.ctrl.toWord
  | .eqFreq => p.eqFreq
  | .eqQ => p.eqQ
  | .emix => p.emix
  | .phStages => p.phStages
  | .phRate => p.phRate
  | .phMin => p.phMin
  | .phMax => p.phMax
  | .phFb => p.phFb
  | .revDecay => p.revDecay
  | .revDamp => p.revDamp
  | .firLenL => p.firLenL
  | .firLenR => p.firLenR
  | .irSeedL => p.irSeedL.zeroExtend 64
  | .irSeedR => p.irSeedR.zeroExtend 64

/-- A P register of a bank as its 64 bits. -/
def PBank.read (b : PBank) : PReg → Word
  | .ctrl => b.ctrl.toWord
  | .bpm => b.bpm
  | .osc c r => b.osc[c].read r
  | .filt r => b.filt.read r
  | .dly r => b.dly.read r
  | .efx r => b.efx.read r

/-- An M register of a bank. -/
def MBank.read (b : MBank) : MReg → Word
  | .amp => b.amp
  | .modIn c => b.modIn[c]
  | .envIn => b.envIn
  | .lfoIn => b.lfoIn

/-- A channel's P register set to `x`, a value that `WriteValue` gives for it. -/
def OscP.set (p : OscP) (r : OscReg) (x : Word) : OscP :=
  match r with
  | .oscCtrl => { p with ctrl := (OscCtrl.ofWord x).getD p.ctrl }
  | .freq => { p with freq := x }
  | .oct => { p with oct := x }
  | .semi => { p with semi := x }
  | .detune => { p with detune := x }
  | .gain => { p with gain := x }
  | .pw => { p with pw := x }
  | .phaseOfs => { p with phaseOfs := x }
  | .pdAmt => { p with pdAmt := x }
  | .wtHarm => { p with wtHarm := x }
  | .fmIndex => { p with fmIndex := x }
  | .fmFb => { p with fmFb := x }
  | .fmRatio j => { p with fmRatio := p.fmRatio.set j x }
  | .fmLevel j => { p with fmLevel := p.fmLevel.set j x }
  | .modDepth => { p with modDepth := x }
  | .noiseSeed => { p with noiseSeed := x.truncate 32 }

/-- A filter P register set to `x`, a value that `WriteValue` gives for it. -/
def FiltP.set (p : FiltP) (r : FiltReg) (x : Word) : FiltP :=
  match r with
  | .filtCtrl => { p with ctrl := (FiltCtrl.ofWord x).getD p.ctrl }
  | .cutoff => { p with cutoff := x }
  | .res => { p with res := x }
  | .drive => { p with drive := x }
  | .keytrack => { p with keytrack := x }
  | .noteFreq => { p with noteFreq := x }
  | .envAmt => { p with envAmt := x }
  | .lfoAmt => { p with lfoAmt := x }
  | .combTime => { p with combTime := x }
  | .combFb => { p with combFb := x }
  | .combDamp => { p with combDamp := x }
  | .formFreq k => { p with formant := p.formant.set k { p.formant[k] with freq := x } }
  | .formBw k => { p with formant := p.formant.set k { p.formant[k] with bw := x } }
  | .formGain k => { p with formant := p.formant.set k { p.formant[k] with gain := x } }

/-- A delay-line P register set to `x`, a value that `WriteValue` gives for it. -/
def DlyP.set (p : DlyP) (r : DlyReg) (x : Word) : DlyP :=
  match r with
  | .dlyCtrl => { p with ctrl := (DlyCtrl.ofWord x).getD p.ctrl }
  | .dtime => { p with dtime := x }
  | .dfb => { p with dfb := x }
  | .dmix => { p with dmix := x }
  | .dwidth => { p with dwidth := x }
  | .chRate => { p with chRate := x }
  | .chDepth => { p with chDepth := x }
  | .chDelay => { p with chDelay := x }
  | .chRatio => { p with chRatio := x }
  | .bbdStages => { p with bbdStages := x }
  | .bbdClock => { p with bbdClock := x }
  | .bbdLpf => { p with bbdLpf := x }
  | .bbdNoise => { p with bbdNoise := x }
  | .wowRate => { p with wowRate := x }
  | .wowDepth => { p with wowDepth := x }
  | .flutRate => { p with flutRate := x }
  | .flutDepth => { p with flutDepth := x }
  | .dnoiseSeed => { p with noiseSeed := x.truncate 32 }

/-- An effect-filter P register set to `x`, a value that `WriteValue` gives for it. -/
def EfxP.set (p : EfxP) (r : EfxReg) (x : Word) : EfxP :=
  match r with
  | .efxCtrl => { p with ctrl := (EfxCtrl.ofWord x).getD p.ctrl }
  | .eqFreq => { p with eqFreq := x }
  | .eqQ => { p with eqQ := x }
  | .emix => { p with emix := x }
  | .phStages => { p with phStages := x }
  | .phRate => { p with phRate := x }
  | .phMin => { p with phMin := x }
  | .phMax => { p with phMax := x }
  | .phFb => { p with phFb := x }
  | .revDecay => { p with revDecay := x }
  | .revDamp => { p with revDamp := x }
  | .firLenL => { p with firLenL := x }
  | .firLenR => { p with firLenR := x }
  | .irSeedL => { p with irSeedL := x.truncate 32 }
  | .irSeedR => { p with irSeedR := x.truncate 32 }

/-- A P register of a bank set to `x`, a value that `WriteValue` gives for it. -/
def PBank.set (b : PBank) (r : PReg) (x : Word) : PBank :=
  match r with
  | .ctrl => { b with ctrl := (Ctrl.ofWord x).getD b.ctrl }
  | .bpm => { b with bpm := x }
  | .osc c r => { b with osc := b.osc.set c (b.osc[c].set r x) }
  | .filt r => { b with filt := b.filt.set r x }
  | .dly r => { b with dly := b.dly.set r x }
  | .efx r => { b with efx := b.efx.set r x }

/-- An M register of a bank set to `x`. -/
def MBank.set (b : MBank) (r : MReg) (x : Word) : MBank :=
  match r with
  | .amp => { b with amp := x }
  | .modIn c => { b with modIn := b.modIn.set c x }
  | .envIn => { b with envIn := x }
  | .lfoIn => { b with lfoIn := x }

/-- The reset seed of channel `c` (10_state.md R41). -/
def resetNoiseSeed (c : Chan) : U32 := 0x9E3779B9#32 + BitVec.ofNat 32 c.val

/-- The reset P registers of channel `c` (10_state.md R39, 70_reset_and_hazards.md R401). -/
def resetOscP (c : Chan) : OscP where
  ctrl := ⟨false, .sine, .polyBlep, 0, false, false, 0⟩
  freq := ofInt 440
  oct := 0
  semi := 0
  detune := f0
  gain := f1
  pw := fHalf
  phaseOfs := f0
  pdAmt := f0
  wtHarm := 64
  fmIndex := f1
  fmFb := f0
  fmRatio := Vector.replicate 4 f1
  fmLevel := Vector.replicate 4 f1
  modDepth := f0
  noiseSeed := resetNoiseSeed c

/-- The reset P registers of the voice filter (10_state.md R44, 70_reset_and_hazards.md R401). -/
def resetFiltP (P : Params) : FiltP where
  ctrl := ⟨.multi, .lp, false, 0⟩
  cutoff := ofInt 1000
  res := f0
  drive := f1
  keytrack := f0
  noteFreq := ofInt 440
  envAmt := f0
  lfoAmt := f0
  combTime := dec 1 2
  combFb := fHalf
  combDamp := fHalf
  formant := #v[P.vowel .a 0, P.vowel .a 1, P.vowel .a 2]

/-- The reset P registers of the delay-line unit (10_state.md R50, 70_reset_and_hazards.md R401). -/
def resetDlyP : DlyP where
  ctrl := ⟨.delay, false, false, .quarter⟩
  dtime := dec 25 2
  dfb := dec 3 1
  dmix := fHalf
  dwidth := f1
  chRate := fHalf
  chDepth := dec 2 3
  chDelay := dec 15 3
  chRatio := dec 11 1
  bbdStages := 1024
  bbdClock := ofInt 10000
  bbdLpf := ofInt 5000
  bbdNoise := dec 1 3
  wowRate := fHalf
  wowDepth := dec 2 3
  flutRate := ofInt 6
  flutDepth := dec 3 4
  noiseSeed := 0x6A09E667

/-- The reset FIR length `clamp(ToInt(1.0 * FS), 1, MAXFIR)` (10_state.md R56). -/
def resetFirLen (P : Params) : Word := firLenWord (irLength P f1)

/-- The reset P registers of the effect-filter unit (10_state.md R56, 70_reset_and_hazards.md R401). -/
def resetEfxP (P : Params) : EfxP where
  ctrl := ⟨.biquad, .lp⟩
  eqFreq := ofInt 5000
  eqQ := dec 7071067811865476 16
  emix := f1
  phStages := 4
  phRate := fHalf
  phMin := ofInt 200
  phMax := ofInt 2000
  phFb := fHalf
  revDecay := f1
  revDamp := fHalf
  firLenL := resetFirLen P
  firLenR := resetFirLen P
  irSeedL := 0xBB67AE85
  irSeedR := 0x3C6EF372

/-- Every P register at its reset value (70_reset_and_hazards.md R400, R401). -/
def resetPBank (P : Params) : PBank where
  ctrl := ⟨false, false, false, false, true⟩
  bpm := ofInt 120
  osc := #v[resetOscP 0, resetOscP 1, resetOscP 2, resetOscP 3]
  filt := resetFiltP P
  dly := resetDlyP
  efx := resetEfxP P

/-- Every M register at its reset value (70_reset_and_hazards.md R401). -/
def resetMBank : MBank where
  amp := f1
  modIn := Vector.replicate 4 f0
  envIn := f0
  lfoIn := f0

end Sys2Proof.Machine
end

