-- ==== Sys2Proof/Machine/Units.lean ====
section
/-! DEFINITION. The state of each unit, the host port, and each unit's state after its reset (10_state.md R39, R44, R46,
R49, R50, R54 to R56, 40_host_commands.md R143, R144). -/

namespace Sys2Proof.Machine

/-- The R state registers of an oscillator channel (10_state.md R39, R42). -/
structure OscState where
  /-- `PHASE` -/
  phase : F64
  /-- `OUT` -/
  out : F64
  /-- `WRAP` -/
  wrap : Bool
  /-- `NOISE_STATE` -/
  noise : U32
  /-- `OPPHASE1..4` -/
  opPhase : Vector F64 4
  /-- `FM_FBSTATE` -/
  fmFb : F64
  deriving DecidableEq, Repr

/-- A Direct-Form-I biquad history (42_filters.md R242). -/
structure History where
  x1 : F64
  x2 : F64
  y1 : F64
  y2 : F64
  deriving DecidableEq, Repr

/-- The voice filter's R state registers, hidden state and comb line (10_state.md R44, R46). -/
structure FiltState where
  /-- `FILT_OUT` -/
  out : F64
  /-- `XPREV` -/
  xprev : F64
  /-- `S1` -/
  s1 : F64
  /-- `BQ` -/
  bq : History
  /-- `Z1..Z4` -/
  z : Vector F64 4
  /-- `LADDER_Y4` -/
  ladderY4 : F64
  /-- `CLINE` -/
  cline : Mem
  /-- `CW` -/
  cw : Nat
  /-- `CS` -/
  cs : F64
  /-- `FQ[1..3]` -/
  fq : Vector History 3
  deriving DecidableEq, Repr

/-- The delay-line unit's R state registers and lines (10_state.md R49, R50). -/
structure DlyState where
  /-- `DBUF_L` -/
  bufL : Mem
  /-- `DBUF_R` -/
  bufR : Mem
  /-- `DW`, read as `DWIDX` -/
  dw : Nat
  /-- `DLY_OUT_L` -/
  outL : F64
  /-- `DLY_OUT_R` -/
  outR : F64
  /-- `DLEN_L` -/
  lenL : F64
  /-- `DLEN_R` -/
  lenR : F64
  /-- `LFO_L` -/
  lfoL : F64
  /-- `LFO_R` -/
  lfoR : F64
  /-- `PH_WOW` -/
  phWow : F64
  /-- `PH_FLUT` -/
  phFlut : F64
  /-- `DNOISE_STATE` -/
  noise : U32
  /-- `BLP_L` -/
  blpL : F64
  /-- `BLP_R` -/
  blpR : F64
  deriving DecidableEq, Repr

/-- The phaser memories of one channel (10_state.md R55). -/
structure PhaserMem where
  /-- `AX_c[0..11]` -/
  ax : Vector F64 12
  /-- `AY_c[0..11]` -/
  ay : Vector F64 12
  /-- `PFB_c` -/
  fb : F64
  deriving DecidableEq, Repr

/-- The effect-filter unit's R state registers, hidden state and memories (10_state.md R54, R55, R56). -/
structure EfxState where
  /-- `H_L` -/
  hL : Mem
  /-- `H_R` -/
  hR : Mem
  /-- `HIST_L` -/
  histL : Mem
  /-- `HIST_R` -/
  histR : Mem
  /-- `HW`, read as `HWIDX` -/
  hw : Nat
  /-- `EBQ_L` -/
  eqL : History
  /-- `EBQ_R` -/
  eqR : History
  /-- left `AX`, `AY`, `PFB` -/
  phL : PhaserMem
  /-- right `AX`, `AY`, `PFB` -/
  phR : PhaserMem
  /-- `PH_LFO` -/
  phLfo : F64
  /-- `PH_COEF` -/
  phCoef : F64
  /-- `EFX_OUT_L` -/
  outL : F64
  /-- `EFX_OUT_R` -/
  outR : F64
  /-- `IR_DECAY_GEN` -/
  irDecayGen : F64
  deriving DecidableEq, Repr

/-- The host port, the model's own field (log 1): the transactions the host has issued and the block has not taken, in
the order it takes them, and the response beats the block has returned, oldest first. -/
structure Port where
  pending : List Transaction
  responses : List Word
  deriving DecidableEq, Repr

/-- Every history element `0.0`. -/
def zeroHistory : History := ⟨f0, f0, f0, f0⟩

/-- Every phaser memory of a channel `0.0`. -/
def zeroPhaser : PhaserMem := ⟨Vector.replicate 12 f0, Vector.replicate 12 f0, f0⟩

/-- A channel's state after `OscReset`, from its active seed (40_host_commands.md R144). -/
def oscResetState (seed : U32) : OscState := ⟨f0, f0, false, seed, Vector.replicate 4 f0, f0⟩

/-- The voice filter's state after `FiltReset` (40_host_commands.md R143). -/
def filtResetState : FiltState where
  out := f0
  xprev := f0
  s1 := f0
  bq := zeroHistory
  z := Vector.replicate 4 f0
  ladderY4 := f0
  cline := []
  cw := 0
  cs := f0
  fq := Vector.replicate 3 zeroHistory

/-- The delay-line unit's state after `DlyReset`, from its active seed (40_host_commands.md R143). -/
def dlyResetState (seed : U32) : DlyState where
  bufL := []
  bufR := []
  dw := 0
  outL := f0
  outR := f0
  lenL := f1
  lenR := f1
  lfoL := f0
  lfoR := f0
  phWow := f0
  phFlut := f0
  noise := seed
  blpL := f0
  blpR := f0

/-- The effect-filter unit's state after `EfxReset`: the coefficient memories and `IR_DECAY_GEN` are kept
(40_host_commands.md R143). -/
def efxResetState (hL hR : Mem) (irDecayGen : F64) : EfxState where
  hL := hL
  hR := hR
  histL := []
  histR := []
  hw := 0
  eqL := zeroHistory
  eqR := zeroHistory
  phL := zeroPhaser
  phR := zeroPhaser
  phLfo := f0
  phCoef := f0
  outL := f0
  outR := f0
  irDecayGen := irDecayGen

end Sys2Proof.Machine
end

