-- ==== Sys2Proof/Machine/State.lean ====
section
/-! DEFINITION. The state of one block instance (10_state.md R57), its outcomes' reasons, and the state after reset
(70_reset_and_hazards.md R400). -/

namespace Sys2Proof.Machine

/-- The complete state of one block instance (10_state.md R57) and its host port. -/
structure State where
  /-- `S.r` of every P register -/
  shadowP : PBank
  /-- `A.r` of every P register -/
  activeP : PBank
  /-- `S.r` of every M register -/
  shadowM : MBank
  /-- `A.r` of every M register -/
  activeM : MBank
  /-- `IN_L` -/
  inL : F64
  /-- `IN_R` -/
  inR : F64
  /-- `FILT_IN` -/
  filtIn : F64
  /-- `FIR_ADDR` -/
  firAddr : Word
  /-- `STATUS` -/
  status : Word
  /-- `TICK_COUNT` -/
  tickCount : Word
  /-- `OUT_L` -/
  outL : F64
  /-- `OUT_R` -/
  outR : F64
  /-- `OSC_MIX` -/
  oscMix : F64
  osc : Vector OscState 4
  filt : FiltState
  dly : DlyState
  efx : EfxState
  port : Port
  deriving DecidableEq, Repr

/-- Why a step could end in a fault. It has no constructor: no error stops the block and there is no fatal run-time
state (60_exceptions.md R374), so nothing raises one. Safe. -/
inductive Fault where
  deriving DecidableEq, Repr

/-- Why a step could be refused. -/
inductive Refusal where
  /-- Raised by an arm of `exec` whose command has no meaning yet; no arm raises it. Safe. -/
  | notModelled (mnemonic : String)
  deriving DecidableEq, Repr

/-- `ResetState` of a block built with the arguments `P` (70_reset_and_hazards.md R400, R401); the port is empty
(log 1). -/
def resetState (P : Params) : State where
  shadowP := resetPBank P
  activeP := resetPBank P
  shadowM := resetMBank
  activeM := resetMBank
  inL := f0
  inR := f0
  filtIn := f0
  firAddr := 0
  status := 0
  tickCount := 0
  outL := f0
  outR := f0
  oscMix := f0
  osc := #v[oscResetState (resetNoiseSeed 0), oscResetState (resetNoiseSeed 1), oscResetState (resetNoiseSeed 2),
    oscResetState (resetNoiseSeed 3)]
  filt := filtResetState
  dly := dlyResetState resetDlyP.noiseSeed
  efx := efxResetState (impulseResponse P f1 fHalf (resetEfxP P).irSeedL) (impulseResponse P f1 fHalf (resetEfxP P).irSeedR) f1
  port := ⟨[], []⟩

/-- The machine right after reset (70_reset_and_hazards.md R400). -/
def State.reset : State := resetState theParams

end Sys2Proof.Machine
end

