-- ==== Sys2Proof/Machine/Flags.lean ====
section
/-! DEFINITION. The flags: the error record `STATUS` (10_state.md R35, 60_exceptions.md R370, R372), the wrap flag and
the self-oscillation flag as registers. -/

namespace Sys2Proof.Machine

/-- The errors a transaction can raise (60_exceptions.md R370). -/
inductive Err where
  | illegalCmd | badCsr | roWrite | badValue | firRange
  deriving DecidableEq, Repr

/-- The error codes (60_exceptions.md R370). -/
def Err.code : Err → Nat
  | .illegalCmd => 1
  | .badCsr => 2
  | .roWrite => 3
  | .badValue => 4
  | .firRange => 5

/-- `STATUS.ERR`, bit 0. -/
def statusErr (status : Word) : Bool := status.getLsbD 0

/-- `STATUS.ERR_CODE`, bits 15:8. -/
def statusCode (status : Word) : Nat := status.toNat / 2 ^ 8 % 2 ^ 8

/-- `(code << 8) | 1` (60_exceptions.md R372). -/
def statusOf (e : Err) : Word := BitVec.ofNat 64 (e.code * 2 ^ 8 + 1)

/-- `STATUS` after an error: the first error is kept (60_exceptions.md R372). -/
def recordErr (e : Err) (status : Word) : Word := if statusErr status then status else statusOf e

/-- A one-bit flag as a register (`WRAP`, `FILT_STATUS`). -/
def flagWord (b : Bool) : Word := if b then 1 else 0

/-- `FILT_STATUS.SELFOSC`: LADDER or SVF with `RES > 0.95` (42_filters.md R246). -/
def selfOsc (p : FiltP) : Bool :=
  (p.ctrl.topo == .ladder || p.ctrl.topo == .svf) && flt (dec 95 2) p.res

end Sys2Proof.Machine
end

