-- ==== Sys2Proof/Machine/Operands.lean ====
section
/-! DEFINITION. The operand forms: selectors (30_encoding.md R103), register indices (10_state.md R31, R32, R39, R44,
R50, R56) and the data beat as the addressed register takes it (40_host_commands.md R135). -/

namespace Sys2Proof.Machine

/-- The channel a selector names, for `OSC_STEP` and `OSC_PHASE_RESET`: 0 to 3 (30_encoding.md R103). -/
def chanOfSel (sel : BitVec 4) : Option Chan :=
  if h : sel.toNat < 4 then some ⟨sel.toNat, h⟩ else none

/-- The units `RESET_UNIT` names (30_encoding.md R103). -/
inductive UnitName where
  | osc (c : Chan)
  | filt
  | dly
  | efx
  deriving DecidableEq, Repr

/-- The unit a selector names: 0 to 3 a channel, 4 the voice filter, 5 the delay-line unit, 6 the effect-filter unit. -/
def unitOfSel (sel : BitVec 4) : Option UnitName :=
  match chanOfSel sel with
  | some c => some (.osc c)
  | none =>
    match sel.toNat with
    | 4 => some .filt
    | 5 => some .dly
    | 6 => some .efx
    | _ => none

/-- The vowel a selector names (30_encoding.md R103). -/
def vowelOfSel (sel : BitVec 4) : Option Vowel :=
  match sel.toNat with
  | 0 => some .a
  | 1 => some .e
  | 2 => some .i
  | 3 => some .o
  | 4 => some .u
  | _ => none

/-- The class D registers (10_state.md R38, R53). -/
inductive DReg where
  | inL | inR | filtIn | firAddr | firData
  deriving DecidableEq, Repr

/-- A channel's class R registers (10_state.md R39). -/
inductive OscRReg where
  | phase | out | wrap | noiseState | dt | opPhase (j : Fin 4) | fmFbState
  deriving DecidableEq, Repr

/-- The class R registers (10_state.md R32, R39, R44, R50, R56). -/
inductive RReg where
  | id | fsHz | maxDlyN | maxCombN | maxFirN | noscN | status | tickCount | outL | outR | oscMix
  | osc (c : Chan) (r : OscRReg)
  | cutoffEff | filtG | fb0 | fb1 | fb2 | fa1 | fa2 | filtOut | combLen | ladderY4 | filtStatus
  | dlyOutL | dlyOutR | dlenL | dlenR | dwIdx | lfoL | lfoR | phWow | phFlut | dnoiseState | blpL | blpR
  | efxOutL | efxOutR | phLfo | irDecayGen | eb0 | eb1 | eb2 | ea1 | ea2 | phCoef | hwIdx
  deriving DecidableEq, Repr

/-- A host-visible register with its access class (10_state.md R30). -/
inductive Reg where
  | p (r : PReg)
  | m (r : MReg)
  | d (r : DReg)
  | r (r : RReg)
  deriving DecidableEq, Repr

/-- The global register map (10_state.md R32). -/
def globalReg : Nat → Option Reg
  | 0x000 => some (.r .id)
  | 0x001 => some (.r .fsHz)
  | 0x002 => some (.r .maxDlyN)
  | 0x003 => some (.r .maxCombN)
  | 0x004 => some (.r .maxFirN)
  | 0x005 => some (.r .noscN)
  | 0x008 => some (.p .ctrl)
  | 0x009 => some (.p .bpm)
  | 0x00A => some (.m .amp)
  | 0x010 => some (.r .status)
  | 0x011 => some (.r .tickCount)
  | 0x018 => some (.d .inL)
  | 0x019 => some (.d .inR)
  | 0x01A => some (.r .outL)
  | 0x01B => some (.r .outR)
  | 0x01C => some (.r .oscMix)
  | _ => none

/-- The register map of channel `c` by offset (10_state.md R39). -/
def oscReg (c : Chan) : Nat → Option Reg
  | 0x00 => some (.p (.osc c .oscCtrl))
  | 0x01 => some (.p (.osc c .freq))
  | 0x02 => some (.p (.osc c .oct))
  | 0x03 => some (.p (.osc c .semi))
  | 0x04 => some (.p (.osc c .detune))
  | 0x05 => some (.p (.osc c .gain))
  | 0x06 => some (.p (.osc c .pw))
  | 0x07 => some (.p (.osc c .phaseOfs))
  | 0x08 => some (.p (.osc c .pdAmt))
  | 0x09 => some (.p (.osc c .wtHarm))
  | 0x0A => some (.p (.osc c .fmIndex))
  | 0x0B => some (.p (.osc c .fmFb))
  | 0x0C => some (.p (.osc c (.fmRatio 0)))
  | 0x0D => some (.p (.osc c (.fmRatio 1)))
  | 0x0E => some (.p (.osc c (.fmRatio 2)))
  | 0x0F => some (.p (.osc c (.fmRatio 3)))
  | 0x10 => some (.p (.osc c (.fmLevel 0)))
  | 0x11 => some (.p (.osc c (.fmLevel 1)))
  | 0x12 => some (.p (.osc c (.fmLevel 2)))
  | 0x13 => some (.p (.osc c (.fmLevel 3)))
  | 0x14 => some (.m (.modIn c))
  | 0x15 => some (.p (.osc c .modDepth))
  | 0x16 => some (.p (.osc c .noiseSeed))
  | 0x18 => some (.r (.osc c .phase))
  | 0x19 => some (.r (.osc c .out))
  | 0x1A => some (.r (.osc c .wrap))
  | 0x1B => some (.r (.osc c .noiseState))
  | 0x1C => some (.r (.osc c .dt))
  | 0x1D => some (.r (.osc c (.opPhase 0)))
  | 0x1E => some (.r (.osc c (.opPhase 1)))
  | 0x1F => some (.r (.osc c (.opPhase 2)))
  | 0x20 => some (.r (.osc c (.opPhase 3)))
  | 0x21 => some (.r (.osc c .fmFbState))
  | _ => none

/-- The voice filter's register map by offset (10_state.md R44). -/
def filtReg : Nat → Option Reg
  | 0x00 => some (.p (.filt .filtCtrl))
  | 0x01 => some (.p (.filt .cutoff))
  | 0x02 => some (.p (.filt .res))
  | 0x03 => some (.p (.filt .drive))
  | 0x04 => some (.p (.filt .keytrack))
  | 0x05 => some (.p (.filt .noteFreq))
  | 0x06 => some (.p (.filt .envAmt))
  | 0x07 => some (.p (.filt .lfoAmt))
  | 0x08 => some (.m .envIn)
  | 0x09 => some (.m .lfoIn)
  | 0x0A => some (.p (.filt .combTime))
  | 0x0B => some (.p (.filt .combFb))
  | 0x0C => some (.p (.filt .combDamp))
  | 0x10 => some (.p (.filt (.formFreq 0)))
  | 0x11 => some (.p (.filt (.formBw 0)))
  | 0x12 => some (.p (.filt (.formGain 0)))
  | 0x13 => some (.p (.filt (.formFreq 1)))
  | 0x14 => some (.p (.filt (.formBw 1)))
  | 0x15 => some (.p (.filt (.formGain 1)))
  | 0x16 => some (.p (.filt (.formFreq 2)))
  | 0x17 => some (.p (.filt (.formBw 2)))
  | 0x18 => some (.p (.filt (.formGain 2)))
  | 0x20 => some (.r .cutoffEff)
  | 0x21 => some (.r .filtG)
  | 0x22 => some (.r .fb0)
  | 0x23 => some (.r .fb1)
  | 0x24 => some (.r .fb2)
  | 0x25 => some (.r .fa1)
  | 0x26 => some (.r .fa2)
  | 0x27 => some (.r .filtOut)
  | 0x28 => some (.d .filtIn)
  | 0x29 => some (.r .combLen)
  | 0x2A => some (.r .ladderY4)
  | 0x2B => some (.r .filtStatus)
  | _ => none

/-- The delay-line unit's register map by offset (10_state.md R50). -/
def dlyReg : Nat → Option Reg
  | 0x00 => some (.p (.dly .dlyCtrl))
  | 0x01 => some (.p (.dly .dtime))
  | 0x02 => some (.p (.dly .dfb))
  | 0x03 => some (.p (.dly .dmix))
  | 0x04 => some (.p (.dly .dwidth))
  | 0x05 => some (.p (.dly .chRate))
  | 0x06 => some (.p (.dly .chDepth))
  | 0x07 => some (.p (.dly .chDelay))
  | 0x08 => some (.p (.dly .chRatio))
  | 0x09 => some (.p (.dly .bbdStages))
  | 0x0A => some (.p (.dly .bbdClock))
  | 0x0B => some (.p (.dly .bbdLpf))
  | 0x0C => some (.p (.dly .bbdNoise))
  | 0x0D => some (.p (.dly .wowRate))
  | 0x0E => some (.p (.dly .wowDepth))
  | 0x0F => some (.p (.dly .flutRate))
  | 0x10 => some (.p (.dly .flutDepth))
  | 0x11 => some (.p (.dly .dnoiseSeed))
  | 0x18 => some (.r .dlyOutL)
  | 0x19 => some (.r .dlyOutR)
  | 0x1A => some (.r .dlenL)
  | 0x1B => some (.r .dlenR)
  | 0x1C => some (.r .dwIdx)
  | 0x1D => some (.r .lfoL)
  | 0x1E => some (.r .lfoR)
  | 0x1F => some (.r .phWow)
  | 0x20 => some (.r .phFlut)
  | 0x21 => some (.r .dnoiseState)
  | 0x22 => some (.r .blpL)
  | 0x23 => some (.r .blpR)
  | _ => none

/-- The effect-filter unit's register map by offset (10_state.md R56). -/
def efxReg : Nat → Option Reg
  | 0x00 => some (.p (.efx .efxCtrl))
  | 0x01 => some (.p (.efx .eqFreq))
  | 0x02 => some (.p (.efx .eqQ))
  | 0x03 => some (.p (.efx .emix))
  | 0x04 => some (.p (.efx .phStages))
  | 0x05 => some (.p (.efx .phRate))
  | 0x06 => some (.p (.efx .phMin))
  | 0x07 => some (.p (.efx .phMax))
  | 0x08 => some (.p (.efx .phFb))
  | 0x09 => some (.p (.efx .revDecay))
  | 0x0A => some (.p (.efx .revDamp))
  | 0x0B => some (.p (.efx .firLenL))
  | 0x0C => some (.p (.efx .firLenR))
  | 0x0D => some (.d .firAddr)
  | 0x0E => some (.d .firData)
  | 0x0F => some (.p (.efx .irSeedL))
  | 0x10 => some (.p (.efx .irSeedR))
  | 0x18 => some (.r .efxOutL)
  | 0x19 => some (.r .efxOutR)
  | 0x1A => some (.r .phLfo)
  | 0x1B => some (.r .irDecayGen)
  | 0x1C => some (.r .eb0)
  | 0x1D => some (.r .eb1)
  | 0x1E => some (.r .eb2)
  | 0x1F => some (.r .ea1)
  | 0x20 => some (.r .ea2)
  | 0x21 => some (.r .phCoef)
  | 0x22 => some (.r .hwIdx)
  | _ => none

/-- The register at an index, `none` where the index is reserved (10_state.md R31). -/
def regAt (addr : BitVec 12) : Option Reg :=
  let a := addr.toNat
  if a < 0x100 then globalReg a
  else if a < 0x200 then oscReg (Fin.ofNat 4 ((a - 0x100) / 0x40)) ((a - 0x100) % 0x40)
  else if a < 0x300 then filtReg (a - 0x200)
  else if a < 0x400 then dlyReg (a - 0x300)
  else if a < 0x500 then efxReg (a - 0x400)
  else none

/-- `WriteValue(r, v)` of a register of the given type (40_host_commands.md R135); `none` raises `BAD_VALUE`. -/
def writeValue (k : RegKind) (v : Word) : Option Word :=
  match k with
  | .f64 lo hi => if isNaN v then none else some (fclamp v lo hi)
  | .i64 lo hi => some (BitVec.ofInt 64 (iclamp v.toInt lo hi))
  | .seed => if v &&& 0xFFFFFFFF = 0 then none else some (v &&& 0xFFFFFFFF)
  | .ctrl => (Ctrl.ofWord v).map fun _ => v &&& 0x1F
  | .oscCtrl => (OscCtrl.ofWord v).map fun _ => v &&& 0x3FFF
  | .filtCtrl => (FiltCtrl.ofWord v).map fun _ => v &&& 0xFF
  | .dlyCtrl => (DlyCtrl.ofWord v).map fun _ => v &&& 0x1FF
  | .efxCtrl => (EfxCtrl.ofWord v).map fun _ => v &&& 0xF

/-- The bits of `FIR_ADDR` that exist (40_host_commands.md R132). -/
def firAddrMask : Word := 0x00000001FFFFFFFF

/-- `FIR_ADDR[31:0]` (10_state.md R53). -/
def firIndex (firAddr : Word) : Nat := (firAddr.extractLsb' 0 32).toNat

/-- `FIR_ADDR[32]`: false left, true right (10_state.md R53). -/
def firRight (firAddr : Word) : Bool := firAddr.getLsbD 32

/-- `FIR_ADDR[31:0] <- (I + 1) mod 2^32`, the other bits kept (20_memory.md R83). -/
def firAdvance (firAddr : Word) : Word := firAddr.extractLsb' 32 32 ++ (firAddr.extractLsb' 0 32 + 1#32)

/-- An I64 register as an integer (30_encoding.md R106). -/
def i64Of (v : Word) : Int := v.toInt

end Sys2Proof.Machine
end

