-- ==== Sys2Proof/Machine/Ops.lean ====
section
/-! DEFINITION. The shared operations over registers and memories: raising an error and clearing it, the response beat,
the FIR window, publication, impulse-response generation and the resets. -/

namespace Sys2Proof.Machine

/-- `raise Err(code)`: the state before the command with only `STATUS` updated (40_host_commands.md R130,
60_exceptions.md R372). -/
def raiseErr (e : Err) (s : State) : State := { s with status := recordErr e s.status }

/-- The return from an error: `STATUS <- 0` (60_exceptions.md R377, 40_host_commands.md R145). -/
def clearErr (s : State) : State := { s with status := 0 }

/-- One response beat sent to the host (30_encoding.md R105). -/
def respond (v : Word) (s : State) : State :=
  { s with port := { s.port with responses := s.port.responses ++ [v] } }

/-- A failed `CSR_READ`: the error is raised and the response beat is 0 (40_host_commands.md R130, R133). -/
def failRead (e : Err) (s : State) : State := respond 0 (raiseErr e s)

/-- An ILLEGAL word: `ILLEGAL_CMD`, and a response beat of value 0 where `OP = 0x11` (30_encoding.md R108,
40_host_commands.md R130). -/
def illegalWord (w : BitVec 32) (s : State) : State :=
  if hasResponse w then failRead .illegalCmd s else raiseErr .illegalCmd s

/-- The transaction the block takes next, removed from the port. -/
def dropPending (s : State) : State := { s with port := { s.port with pending := s.port.pending.tail } }

/-- The element of `H_L` or `H_R` the window is at (20_memory.md R83). -/
def windowRead (s : State) : Word :=
  memRead (if firRight s.firAddr then s.efx.hR else s.efx.hL) (firIndex s.firAddr)

/-- The window's element written (20_memory.md R83). -/
def windowWrite (v : Word) (s : State) : State :=
  if firRight s.firAddr then { s with efx := { s.efx with hR := memWrite s.efx.hR (firIndex s.firAddr) v } }
  else { s with efx := { s.efx with hL := memWrite s.efx.hL (firIndex s.firAddr) v } }

/-- The window's index advanced (20_memory.md R83). -/
def windowAdvance (s : State) : State := { s with firAddr := firAdvance s.firAddr }

/-- Whether the window is at an element that exists (20_memory.md R83). -/
def windowOk (P : Params) (s : State) : Bool := decide (firIndex s.firAddr < P.maxFir)

/-- A P bank with both FIR lengths set to `len` (44_effect_filters.md R345). -/
def PBank.withFirLen (b : PBank) (len : Word) : PBank := { b with efx := { b.efx with firLenL := len, firLenR := len } }

/-- `GenerateIR()` from the active registers (44_effect_filters.md R345). -/
def generateIR (P : Params) (s : State) : State :=
  let q := s.activeP.efx
  let len := firLenWord (irLength P q.revDecay)
  { s with
    shadowP := s.shadowP.withFirLen len
    activeP := s.activeP.withFirLen len
    efx := { s.efx with
      hL := impulseResponse P q.revDecay q.revDamp q.irSeedL
      hR := impulseResponse P q.revDecay q.revDamp q.irSeedR
      irDecayGen := q.revDecay } }

/-- Every P register published: `A.r <- S.r` (40_host_commands.md R138). -/
def publishP (s : State) : State := { s with activeP := s.shadowP }

/-- Every M register published: `A.r <- S.r` (40_host_commands.md R140). -/
def publishM (s : State) : State := { s with activeM := s.shadowM }

/-- `COMMIT`: publish, then regenerate where the decay differs from the last generation's (40_host_commands.md R138). -/
def commitState (P : Params) (s : State) : State :=
  let t := publishP s
  if feq t.activeP.efx.revDecay t.efx.irDecayGen then t else generateIR P t

/-- A channel's state replaced. -/
def setOsc (c : Chan) (o : OscState) (s : State) : State := { s with osc := s.osc.set c o }

/-- `OscReset(c)` (40_host_commands.md R144). -/
def oscReset (c : Chan) (s : State) : State := setOsc c (oscResetState s.activeP.osc[c].noiseSeed) s

/-- `FiltReset()` (40_host_commands.md R143). -/
def filtReset (s : State) : State := { s with filt := filtResetState }

/-- `DlyReset()` (40_host_commands.md R143). -/
def dlyReset (s : State) : State := { s with dly := dlyResetState s.activeP.dly.noiseSeed }

/-- `EfxReset()` (40_host_commands.md R143). -/
def efxReset (s : State) : State := { s with efx := efxResetState s.efx.hL s.efx.hR s.efx.irDecayGen }

/-- The unit reset a unit name selects (40_host_commands.md R142). -/
def resetUnitState (u : UnitName) (s : State) : State :=
  match u with
  | .osc c => oscReset c s
  | .filt => filtReset s
  | .dly => dlyReset s
  | .efx => efxReset s

/-- `PHASE` and `OPPHASE1..4` at 0 (41_oscillators.md R199, R201). -/
def OscState.phaseReset (o : OscState) : OscState := { o with phase := f0, opPhase := Vector.replicate 4 f0 }

/-- The whole block reset: `ResetState`; the host port is not part of the block (40_host_commands.md R141, log 1). -/
def softResetState (P : Params) (s : State) : State := { resetState P with port := s.port }

/-- A vowel's row put in the shadow formant registers (42_filters.md R256). -/
def loadVowel (P : Params) (v : Vowel) (s : State) : State :=
  { s with shadowP := { s.shadowP with filt := { s.shadowP.filt with formant := #v[P.vowel v 0, P.vowel v 1, P.vowel v 2] } } }

end Sys2Proof.Machine
end

