-- ==== Sys2Proof/Machine/Filter.lean ====
section
/-! DEFINITION. The voice filter: cutoff, coefficients, topologies, the filter step, and the meanings of FILT_PROC and
VOWEL_LOAD (42_filters.md). -/

namespace Sys2Proof.Machine

/-- `CUTOFF_EFF` (42_filters.md R237). -/
def cutoffEff (p : FiltP) (m : MBank) : F64 :=
  fclamp
    (fadd
      (fadd (fadd p.cutoff (fmul (fsub p.noteFreq (ofInt 440)) p.keytrack))
        (fmul (fmul p.envAmt m.envIn) (ofInt 10000)))
      (fmul (fmul p.lfoAmt m.lfoIn) (ofInt 5000)))
    (ofInt 20) (ofInt 20000)

/-- `min(f, 0.49 * rate)`, the warp limit (42_filters.md R238). -/
def warpLimit (f rate : F64) : F64 := fmin f (fmul (dec 49 2) rate)

/-- `FSr = FS * Float(M)` with `M = 2 ^ FOVS` (42_filters.md R232, R235). -/
def filtRate (P : Params) (c : FiltCtrl) : F64 := fmul P.fs (ofInt (2 ^ c.fovs.val))

/-- The trapezoidal coefficient `g = Tan(PI * f / rate)` (42_filters.md R239, R244). -/
def tptG (P : Params) (f rate : F64) : F64 := P.tan (fdiv (fmul fPi f) rate)

/-- One trapezoidal one-pole step: `v = (g / (1 + g)) * (u - s)`, the low-pass output `v + s` and the new memory
`lp + v` (42_filters.md R239). -/
def tptStep (g u s : F64) : F64 × F64 :=
  let v := fmul (fdiv g (fadd f1 g)) (fsub u s)
  let lp := fadd v s
  (lp, fadd lp v)

/-- The normalised biquad tuple `(FB0, FB1, FB2, FA1, FA2)` (42_filters.md R241). -/
structure Coefs where
  b0 : F64
  b1 : F64
  b2 : F64
  a1 : F64
  a2 : F64
  deriving DecidableEq, Repr

/-- `Coef(resp, fcw, FSr, Q)` (42_filters.md R241). -/
def coefOf (P : Params) (resp : Response) (fcw rate q : F64) : Coefs :=
  let w0 := fdiv (fmul fTwoPi fcw) rate
  let cw := P.cos w0
  let sw := P.sin w0
  let alpha := fdiv sw (fmul f2 q)
  let b : F64 × F64 × F64 :=
    match resp with
    | .lp => (fdiv (fsub f1 cw) f2, fsub f1 cw, fdiv (fsub f1 cw) f2)
    | .hp => (fdiv (fadd f1 cw) f2, fneg (fadd f1 cw), fdiv (fadd f1 cw) f2)
    | .bp => (alpha, f0, fneg alpha)
    | .notch => (f1, fmul fNeg2 cw, f1)
  let a0 := fadd f1 alpha
  let a1 := fmul fNeg2 cw
  let a2 := fsub f1 alpha
  ⟨fdiv b.1 a0, fdiv b.2.1 a0, fdiv b.2.2 a0, fdiv a1 a0, fdiv a2 a0⟩

/-- The biquad step, Direct Form I: the output and the new history (42_filters.md R242). -/
def biquadStep (h : History) (k : Coefs) (u : F64) : F64 × History :=
  let y := fsub (fsub (fadd (fadd (fmul k.b0 u) (fmul k.b1 h.x1)) (fmul k.b2 h.x2)) (fmul k.a1 h.y1)) (fmul k.a2 h.y2)
  (y, ⟨u, h.x1, y, h.y1⟩)

/-- `QSK() = 1.0 / (2.0 - 2.0 * r)` (42_filters.md R240, R243). -/
def qSallenKey (p : FiltP) : F64 := fdiv f1 (fsub f2 (fmul f2 p.res))

/-- `QM() = min(25.0, 1.0 / (2.0 - 2.0 * r))` (42_filters.md R240). -/
def qMulti (p : FiltP) : F64 := fmin (ofInt 25) (qSallenKey p)

/-- Whether MULTI uses its 1-pole form: `ONEPOLE = 1` and `RESP` LP or HP (42_filters.md R233, R234). -/
def onePoleForm (c : FiltCtrl) : Bool := c.topo == .multi && c.onePole && (c.resp == .lp || c.resp == .hp)

/-- The coefficients of the selected 2-pole topology, none for the others (42_filters.md R233, R241). -/
def filtCoefs (P : Params) (p : FiltP) (fcw rate : F64) : Option Coefs :=
  match p.ctrl.topo with
  | .multi => if onePoleForm p.ctrl then none else some (coefOf P p.ctrl.resp fcw rate (qMulti p))
  | .sallenKey => some (coefOf P .lp fcw rate (qSallenKey p))
  | .svf => some (coefOf P p.ctrl.resp fcw rate (qMulti p))
  | .ladder => none
  | .comb => none
  | .formant => none

/-- `OnePole(u, fcw, FSr)` (42_filters.md R239). -/
def onePole (P : Params) (p : FiltP) (u fcw rate : F64) (st : FiltState) : F64 × FiltState :=
  let r := tptStep (tptG P fcw rate) u st.s1
  (if p.ctrl.resp = .hp then fsub u r.1 else r.1, { st with s1 := r.2 })

/-- The biquad of the 2-pole topologies on the shared history `BQ` (42_filters.md R242). -/
def sharedBiquad (k : Coefs) (u : F64) (st : FiltState) : F64 × FiltState :=
  let r := biquadStep st.bq k u
  (r.1, { st with bq := r.2 })

/-- One ladder stage: the signal passed on and the memories (42_filters.md R244). -/
def ladderStage (g : F64) (r : F64 × Vector F64 4) (i : Fin 4) : F64 × Vector F64 4 :=
  let t := tptStep g r.1 r.2[i]
  (t.1, r.2.set i t.2)

/-- `Ladder(u, fcw, FSr)` (42_filters.md R244). -/
def ladder (P : Params) (p : FiltP) (u fcw rate : F64) (st : FiltState) : F64 × FiltState :=
  let g := tptG P fcw rate
  let k := fmul p.res f4
  let s := fsub (P.tanh u) (fmul k st.ladderY4)
  let r := [0, 1, 2, 3].foldl (ladderStage g) (s, st.z)
  let y := if flt (dec 95 2) p.res then fclamp r.1 fNeg1 f1 else r.1
  (y, { st with z := r.2, ladderY4 := y })

/-- The comb length `L = clamp(ToInt(COMB_TIME * FSr), 1, MAXCOMB)` (42_filters.md R248). -/
def combLen (P : Params) (p : FiltP) (rate : F64) : Int := iclamp (toInt (fmul p.combTime rate)) 1 P.maxComb

/-- `Comb(u, FSr)` (42_filters.md R248). -/
def comb (P : Params) (p : FiltP) (u rate : F64) (st : FiltState) : F64 × FiltState :=
  let d := memRead st.cline (modIndex ((st.cw : Int) - combLen P p rate) P.maxComb)
  let cs := fadd (fmul st.cs (fsub f1 p.combDamp)) (fmul d p.combDamp)
  let y := fadd u (fmul cs p.combFb)
  (y, { st with cs := cs, cline := memWrite st.cline st.cw y, cw := nextIndex st.cw P.maxComb })

/-- Formant `k`'s coefficients: BP at `min(Fk_FREQ, 0.49 * FSr)` with `Q = Fk_FREQ / Fk_BW` (42_filters.md R250, R251). -/
def formantCoefs (P : Params) (f : Formant) (rate : F64) : Coefs :=
  coefOf P .bp (warpLimit f.freq rate) rate (fdiv f.freq f.bw)

/-- One formant of the bank: the gain-weighted sum and the histories (42_filters.md R250). -/
def formantStage (P : Params) (p : FiltP) (u rate : F64) (r : F64 × Vector History 3) (k : Fin 3) : F64 × Vector History 3 :=
  let t := biquadStep r.2[k] (formantCoefs P p.formant[k] rate) u
  (fadd r.1 (fmul p.formant[k].gain t.1), r.2.set k t.2)

/-- `Formant(u, FSr)` (42_filters.md R250, R252). -/
def formantBank (P : Params) (p : FiltP) (u rate : F64) (st : FiltState) : F64 × FiltState :=
  let r := [0, 1, 2].foldl (formantStage P p u rate) (f0, st.fq)
  (fclamp r.1 fNeg1 f1, { st with fq := r.2 })

/-- `Topo(u, FSr)`, from the effective cutoff (42_filters.md R233). -/
def topoStep (P : Params) (p : FiltP) (cutoff u rate : F64) (st : FiltState) : F64 × FiltState :=
  let fcw := warpLimit cutoff rate
  match p.ctrl.topo with
  | .multi =>
    if onePoleForm p.ctrl then onePole P p u fcw rate st
    else sharedBiquad (coefOf P p.ctrl.resp fcw rate (qMulti p)) u st
  | .ladder => ladder P p u fcw rate st
  | .sallenKey => sharedBiquad (coefOf P .lp fcw rate (qSallenKey p)) u st
  | .svf => sharedBiquad (coefOf P p.ctrl.resp fcw rate (qMulti p)) u st
  | .comb => comb P p u rate st
  | .formant => formantBank P p u rate st

/-- The input of sub-sample `k` of `m`: the line from `XPREV` to the driven input, its end the driven input itself
(42_filters.md R232, R235). -/
def filtInput (xprev xd : F64) (m k : Nat) : F64 :=
  if k < m - 1 then fadd xprev (fmul (fsub xd xprev) (fdiv (ofInt (k + 1)) (ofInt m))) else xd

/-- Sub-samples `k` to `k + n - 1` of `m`: the sum and the state (42_filters.md R232). -/
def filtSubSteps (P : Params) (p : FiltP) (cutoff xprev xd rate : F64) (m : Nat) : (n k : Nat) → F64 × FiltState → F64 × FiltState
  | 0, _, r => r
  | n + 1, k, r =>
    let t := topoStep P p cutoff (filtInput xprev xd m k) rate r.2
    filtSubSteps P p cutoff xprev xd rate m n (k + 1) (fadd r.1 t.1, t.2)

/-- `FiltStep(x)` on the filter's state (42_filters.md R232): the new state, whose `out` is the result. -/
def filtStepState (P : Params) (p : FiltP) (mb : MBank) (x : F64) (st : FiltState) : FiltState :=
  let m : Nat := 2 ^ p.ctrl.fovs.val
  let xd := fmul p.drive x
  let r := filtSubSteps P p (cutoffEff p mb) st.xprev xd (filtRate P p.ctrl) m m 0 (f0, st)
  { r.2 with xprev := xd, out := fdiv r.1 (ofInt m) }

/-- `FiltStep(x)` (42_filters.md R232). -/
def filtStep (P : Params) (x : F64) (s : State) : State :=
  { s with filt := filtStepState P s.activeP.filt s.activeM x s.filt }

/-- `FILT_G`: `g` of the 1-pole and ladder forms, else `0.0` (10_state.md R44, 42_filters.md R239, R244). -/
def filtG (P : Params) (p : FiltP) (m : MBank) : F64 :=
  if onePoleForm p.ctrl || p.ctrl.topo == .ladder then
    tptG P (warpLimit (cutoffEff p m) (filtRate P p.ctrl)) (filtRate P p.ctrl)
  else f0

/-- `FB0..FA2`: the tuple of the selected 2-pole topology, else `0.0` (10_state.md R44, 42_filters.md R241). -/
def filtTuple (P : Params) (p : FiltP) (m : MBank) : Coefs :=
  (filtCoefs P p (warpLimit (cutoffEff p m) (filtRate P p.ctrl)) (filtRate P p.ctrl)).getD ⟨f0, f0, f0, f0, f0⟩

/-- FILT_PROC (42_filters.md R231). -/
def execFiltProc (s : State) : Host.Outcome State Fault Refusal := .next (filtStep theParams s.filtIn s)

/-- VOWEL_LOAD (42_filters.md R256); a selector above 4 is no command (30_encoding.md R103, R108; log 10). -/
def execVowelLoad (sel : BitVec 4) (s : State) : Host.Outcome State Fault Refusal :=
  match vowelOfSel sel with
  | some v => .next (loadVowel theParams v s)
  | none => .next (raiseErr .illegalCmd s)

end Sys2Proof.Machine
end

