-- ==== Sys2Proof/Machine/Delay.lean ====
section
/-! DEFINITION. The delay-line unit: lengths, the fractional read, colouring, the unit step, and the meaning of DLY_PROC
(43_delay_lines.md). -/

namespace Sys2Proof.Machine

/-- `BEATS[DIV]` (43_delay_lines.md R292). -/
def beats : Division → F64
  | .whole => f4
  | .half => f2
  | .quarter => f1
  | .eighth => fHalf
  | .sixteenth => dec 25 2
  | .thirtySecond => dec 125 3
  | .dottedQuarter => dec 15 1
  | .dottedEighth => dec 75 2
  | .tripletQuarter => fdiv f2 (ofInt 3)
  | .tripletEighth => fdiv f1 (ofInt 3)

/-- `Tb`: the tempo division's seconds with `SYNC = 1`, else `DTIME` (43_delay_lines.md R294). -/
def baseTime (q : DlyP) (bpm : F64) : F64 :=
  if q.ctrl.sync then fmul (fdiv (ofInt 60) bpm) (beats q.ctrl.div) else q.dtime

/-- The chorus length at an LFO phase (43_delay_lines.md R294, R297). -/
def chorusLen (P : Params) (q : DlyP) (lfo : F64) : F64 :=
  fmul (fadd q.chDelay (fmul q.chDepth (fadd fHalf (fmul fHalf (P.sin (fmul fTwoPi lfo)))))) P.fs

/-- The tape's delay time: the base time, with wow and flutter where `ANALOG_EN = 1` (43_delay_lines.md R294, R304). -/
def tapeTime (P : Params) (q : DlyP) (bpm : F64) (analog : Bool) (st : DlyState) : F64 :=
  let t := baseTime q bpm
  if analog then
    fadd (fadd t (fmul q.wowDepth (P.sin (fmul fTwoPi st.phWow)))) (fmul q.flutDepth (P.sin (fmul fTwoPi st.phFlut)))
  else t

/-- The lengths of both channels before the limit (43_delay_lines.md R294). -/
def rawLengths (P : Params) (q : DlyP) (bpm : F64) (analog : Bool) (st : DlyState) : F64 × F64 :=
  match q.ctrl.mode with
  | .delay => let d := fmul (baseTime q bpm) P.fs; (d, d)
  | .chorus => (chorusLen P q st.lfoL, chorusLen P q st.lfoR)
  | .bbdChorus => (chorusLen P q st.lfoL, chorusLen P q st.lfoR)
  | .bbdDelay => let d := fmul (fdiv (ofInt (i64Of q.bbdStages)) q.bbdClock) P.fs; (d, d)
  | .tape => let d := fmul (tapeTime P q bpm analog st) P.fs; (d, d)

/-- A length limited to `[1, MAXDLY - 2]` (43_delay_lines.md R294). -/
def limitLength (P : Params) (d : F64) : F64 := fclamp d f1 (ofInt ((P.maxDly : Int) - 2))

/-- `Lengths(mode)` (43_delay_lines.md R294). -/
def lengths (P : Params) (q : DlyP) (bpm : F64) (analog : Bool) (st : DlyState) : F64 × F64 :=
  let d := rawLengths P q bpm analog st
  (limitLength P d.1, limitLength P d.2)

/-- The sample written `k` steps ago (20_memory.md R82). -/
def lineRead (size : Nat) (buf : Mem) (dw : Nat) (k : Int) : F64 := memRead buf (modIndex ((dw : Int) - k) size)

/-- `Tap(buf, D)`: linear interpolation between `ToInt(D)` and one more steps ago (43_delay_lines.md R295). -/
def tap (P : Params) (buf : Mem) (dw : Nat) (d : F64) : F64 :=
  let i := toInt d
  let fr := fsub d (ofInt i)
  let a := lineRead P.maxDly buf dw i
  let b := lineRead P.maxDly buf dw (i + 1)
  fadd a (fmul fr (fsub b a))

/-- `Bbd(ch, d)` (43_delay_lines.md R303) from the channel's low-pass memory and the noise state: the coloured sample,
the new memory, the new noise state. -/
def bbd (P : Params) (q : DlyP) (d blp : F64) (noise : U32) : F64 × F64 × U32 :=
  let r := tptStep (tptG P (warpLimit q.bbdLpf P.fs) P.fs) d blp
  (fadd r.1 (fmul q.bbdNoise (noiseValue (xorshift noise))), r.2, xorshift noise)

/-- Both channels coloured, the left noise drawn first (43_delay_lines.md R298, R303). -/
def bbdPair (P : Params) (q : DlyP) (dl dr : F64) (st : DlyState) : F64 × F64 × DlyState :=
  let l := bbd P q dl st.blpL st.noise
  let r := bbd P q dr st.blpR l.2.2
  (l.1, r.1, { st with blpL := l.2.1, blpR := r.2.1, noise := r.2.2 })

/-- The wet pair, the feedback pair and the coloured state of one step (43_delay_lines.md R293). -/
structure Colour where
  wl : F64
  wr : F64
  fl : F64
  fr : F64
  st : DlyState
  deriving DecidableEq, Repr

/-- The `case mode` of the unit step (43_delay_lines.md R293, R305). -/
def colour (P : Params) (q : DlyP) (analog : Bool) (dl dr : F64) (st : DlyState) : Colour :=
  match q.ctrl.mode, analog with
  | .delay, _ => ⟨dl, dr, dl, dr, st⟩
  | .chorus, _ => ⟨dl, dr, dl, dr, st⟩
  | .bbdDelay, true => let c := bbdPair P q dl dr st; ⟨dl, dr, c.1, c.2.1, c.2.2⟩
  | .bbdDelay, false => ⟨dl, dr, dl, dr, st⟩
  | .bbdChorus, true => let c := bbdPair P q dl dr st; ⟨c.1, c.2.1, c.1, c.2.1, c.2.2⟩
  | .bbdChorus, false => ⟨dl, dr, dl, dr, st⟩
  | .tape, true => ⟨dl, dr, P.tanh dl, P.tanh dr, st⟩
  | .tape, false => ⟨dl, dr, dl, dr, st⟩

/-- The delay modes: DELAY, BBD_DELAY, TAPE (43_delay_lines.md R293, R300, R301). -/
def isDelayMode : DelayMode → Bool
  | .delay => true
  | .chorus => false
  | .bbdDelay => true
  | .bbdChorus => false
  | .tape => true

/-- The feedback pair as it enters the lines: crossed with `PINGPONG = 1` in the delay modes (43_delay_lines.md R300). -/
def feedbackPair (q : DlyP) (c : Colour) : F64 × F64 :=
  if q.ctrl.pingPong && isDelayMode q.ctrl.mode then (c.fr, c.fl) else (c.fl, c.fr)

/-- `AdvanceLfos()` (43_delay_lines.md R296). -/
def advanceLfos (P : Params) (q : DlyP) (st : DlyState) : DlyState :=
  { st with
    lfoL := frac (fadd st.lfoL (fdiv q.chRate P.fs))
    lfoR := frac (fadd st.lfoR (fdiv (fmul q.chRate q.chRatio) P.fs))
    phWow := frac (fadd st.phWow (fdiv q.wowRate P.fs))
    phFlut := frac (fadd st.phFlut (fdiv q.flutRate P.fs)) }

/-- The wet gain: `DMIX * DWIDTH` in the delay modes, `DMIX` in the chorus modes (43_delay_lines.md R301). -/
def wetGain (q : DlyP) : F64 := if isDelayMode q.ctrl.mode then fmul q.dmix q.dwidth else q.dmix

/-- One channel of a mix: `x * (1.0 - mix) + w * gain` (43_delay_lines.md R301, 44_effect_filters.md R342). -/
def mixOut (x w mix gain : F64) : F64 := fadd (fmul x (fsub f1 mix)) (fmul w gain)

/-- `DlyStep(xl, xr)` on the unit's state (43_delay_lines.md R293): the new state, whose `outL`, `outR` are the result. -/
def dlyStepState (P : Params) (q : DlyP) (bpm : F64) (analog : Bool) (xl xr : F64) (st : DlyState) : DlyState :=
  let len := lengths P q bpm analog st
  let c := colour P q analog (tap P st.bufL st.dw len.1) (tap P st.bufR st.dw len.2) st
  let g := feedbackPair q c
  let written : DlyState :=
    { c.st with
      bufL := memWrite st.bufL st.dw (fadd xl (fmul q.dfb g.1))
      bufR := memWrite st.bufR st.dw (fadd xr (fmul q.dfb g.2))
      dw := nextIndex st.dw P.maxDly }
  { advanceLfos P q written with
    lenL := len.1
    lenR := len.2
    outL := mixOut xl c.wl q.dmix (wetGain q)
    outR := mixOut xr c.wr q.dmix (wetGain q) }

/-- `DlyStep(xl, xr)` (43_delay_lines.md R293). -/
def dlyStep (P : Params) (xl xr : F64) (s : State) : State :=
  { s with dly := dlyStepState P s.activeP.dly s.activeP.bpm s.activeP.ctrl.analogEn xl xr s.dly }

/-- DLY_PROC (43_delay_lines.md R291). -/
def execDlyProc (s : State) : Host.Outcome State Fault Refusal := .next (dlyStep theParams s.inL s.inR s)

end Sys2Proof.Machine
end

