-- ==== Sys2Proof/Machine/EffectFilter.lean ====
section
/-! DEFINITION. The effect-filter unit: the tone biquad, the phaser, the FIR convolution, the unit step, and the meanings
of EFX_PROC and IR_GEN (44_effect_filters.md). -/

namespace Sys2Proof.Machine

/-- `ToneCoef()` (44_effect_filters.md R334). -/
def toneCoefs (P : Params) (q : EfxP) : Coefs := coefOf P q.ctrl.resp (warpLimit q.eqFreq P.fs) P.fs q.eqQ

/-- The phaser's sweep frequency at the LFO phase (44_effect_filters.md R336). -/
def phaserFreq (P : Params) (q : EfxP) (lfo : F64) : F64 :=
  fadd q.phMin (fmul (fsub q.phMax q.phMin) (fadd fHalf (fmul fHalf (P.sin (fmul fTwoPi lfo)))))

/-- The all-pass coefficient `a = (t - 1.0) / (t + 1.0)` (44_effect_filters.md R336). -/
def phaserCoef (P : Params) (q : EfxP) (lfo : F64) : F64 :=
  let t := tptG P (warpLimit (phaserFreq P q lfo) P.fs) P.fs
  fdiv (fsub t f1) (fadd t f1)

/-- One all-pass stage: the signal passed on and the memories (44_effect_filters.md R336). -/
def phaserStage (a : F64) (r : F64 × PhaserMem) (st : Fin 12) : F64 × PhaserMem :=
  let y := fsub (fadd (fmul a r.1) r.2.ax[st]) (fmul a r.2.ay[st])
  (y, { r.2 with ax := r.2.ax.set st r.1, ay := r.2.ay.set st y })

/-- The stages that run: the first `PH_STAGES` of the twelve (44_effect_filters.md R336, R337). -/
def phaserStages (q : EfxP) : List (Fin 12) := (List.finRange 12).take (i64Of q.phStages).toNat

/-- One channel of the phaser (44_effect_filters.md R336). -/
def phaserChannel (q : EfxP) (a x : F64) (m : PhaserMem) : F64 × PhaserMem :=
  let r := (phaserStages q).foldl (phaserStage a) (fadd x (fmul q.phFb m.fb), m)
  (r.1, { r.2 with fb := r.1 })

/-- `y` after `n` taps: the products summed in ascending order from `0.0` (44_effect_filters.md R340). -/
def firSum (size : Nat) (h hist : Mem) (hw : Nat) : Nat → F64
  | 0 => f0
  | n + 1 => fadd (firSum size h hist hw n) (fmul (memRead h n) (memRead hist (modIndex ((hw : Int) - n) size)))

/-- A wet pair and the unit's state after its algorithm. -/
structure Wet where
  wl : F64
  wr : F64
  st : EfxState
  deriving DecidableEq, Repr

/-- The BIQUAD mode (44_effect_filters.md R333, R335). -/
def efxBiquad (P : Params) (q : EfxP) (xl xr : F64) (st : EfxState) : Wet :=
  let l := biquadStep st.eqL (toneCoefs P q) xl
  let r := biquadStep st.eqR (toneCoefs P q) xr
  ⟨l.1, r.1, { st with eqL := l.2, eqR := r.2 }⟩

/-- The PHASER mode (44_effect_filters.md R336). -/
def efxPhaser (P : Params) (q : EfxP) (xl xr : F64) (st : EfxState) : Wet :=
  let a := phaserCoef P q st.phLfo
  let l := phaserChannel q a xl st.phL
  let r := phaserChannel q a xr st.phR
  ⟨l.1, r.1, { st with phCoef := a, phL := l.2, phR := r.2, phLfo := frac (fadd st.phLfo (fdiv q.phRate P.fs)) }⟩

/-- The FIR mode: each history written at `HW`, then its taps summed; `HW` advances once after both channels
(44_effect_filters.md R333, R340). -/
def efxFir (P : Params) (q : EfxP) (xl xr : F64) (st : EfxState) : Wet :=
  let histL := memWrite st.histL st.hw xl
  let histR := memWrite st.histR st.hw xr
  ⟨firSum P.maxFir st.hL histL st.hw (i64Of q.firLenL).toNat, firSum P.maxFir st.hR histR st.hw (i64Of q.firLenR).toNat,
    { st with histL := histL, histR := histR, hw := nextIndex st.hw P.maxFir }⟩

/-- `EfxStep(xl, xr)` on the unit's state (44_effect_filters.md R333): the new state, whose `outL`, `outR` are the
result. -/
def efxStepState (P : Params) (q : EfxP) (xl xr : F64) (st : EfxState) : EfxState :=
  let w :=
    match q.ctrl.mode with
    | .biquad => efxBiquad P q xl xr st
    | .phaser => efxPhaser P q xl xr st
    | .fir => efxFir P q xl xr st
  { w.st with outL := mixOut xl w.wl q.emix q.emix, outR := mixOut xr w.wr q.emix q.emix }

/-- `EfxStep(xl, xr)` (44_effect_filters.md R333). -/
def efxStep (P : Params) (xl xr : F64) (s : State) : State := { s with efx := efxStepState P s.activeP.efx xl xr s.efx }

/-- EFX_PROC (44_effect_filters.md R331). -/
def execEfxProc (s : State) : Host.Outcome State Fault Refusal := .next (efxStep theParams s.inL s.inR s)

/-- IR_GEN (44_effect_filters.md R347). -/
def execIrGen (s : State) : Host.Outcome State Fault Refusal := .next (generateIR theParams s)

end Sys2Proof.Machine
end

