-- ==== Sys2Proof/Machine/Oscillator.lean ====
section
/-! DEFINITION. The oscillator channels: pitch, waveforms, the channel step, and the meanings of OSC_STEP and
OSC_PHASE_RESET (41_oscillators.md). -/

namespace Sys2Proof.Machine

/-- `DT(c)` (41_oscillators.md R174), from the channel's active P registers and its active `MOD_IN`. -/
def dtOf (P : Params) (p : OscP) (modIn : F64) : F64 :=
  let t := fadd (ofInt (i64Of p.oct)) (fdiv (fadd (ofInt (i64Of p.semi)) (fdiv p.detune (ofInt 100))) (ofInt 12))
  let f := fmul p.freq (P.exp2 t)
  let g := fmul f (P.exp2 (fdiv (fmul modIn p.modDepth) (ofInt 12)))
  fmax (fmin (fdiv g P.fs) fHalf) f0

/-- `NaiveSine` (41_oscillators.md R178). -/
def naiveSine (P : Params) (p : F64) : F64 := P.sin (fmul fTwoPi p)

/-- `NaiveTri` (41_oscillators.md R179). -/
def naiveTri (p : F64) : F64 :=
  if flt p (dec 25 2) then fmul f4 p
  else if flt p (dec 75 2) then fsub f2 (fmul f4 p)
  else fsub (fmul f4 p) f4

/-- `NaiveSaw` (41_oscillators.md R180). -/
def naiveSaw (p : F64) : F64 := fsub (fmul f2 p) f1

/-- `NaiveSquare` (41_oscillators.md R182). -/
def naiveSquare (p : F64) : F64 := if flt p fHalf then f1 else fNeg1

/-- `NaivePulse` (41_oscillators.md R183). -/
def naivePulse (p pw : F64) : F64 := if flt p pw then f1 else fNeg1

/-- The correction polynomial `blep` (41_oscillators.md R186). -/
def blep (t dt : F64) : F64 :=
  if flt t dt then
    let u := fdiv t dt
    fsub (fsub (fadd u u) (fmul u u)) f1
  else if flt (fsub f1 dt) t then
    let u := fdiv (fsub t f1) dt
    fadd (fadd (fadd (fmul u u) u) u) f1
  else f0

/-- `BlepSaw` (41_oscillators.md R187). -/
def blepSaw (p dt : F64) : F64 := fclamp (fsub (naiveSaw p) (blep p dt)) fNeg1 f1

/-- `BlepSquare` (41_oscillators.md R188). -/
def blepSquare (p dt : F64) : F64 :=
  fclamp (fsub (fadd (naiveSquare p) (blep p dt)) (blep (frac (fadd p fHalf)) dt)) fNeg1 f1

/-- `BlepPulse` (41_oscillators.md R188). -/
def blepPulse (p dt pw : F64) : F64 :=
  fclamp (fsub (fadd (naivePulse p pw) (blep p dt)) (blep (frac (fadd p (fsub f1 pw))) dt)) fNeg1 f1

/-- The number of `n` in `1..limit` with `Float(n) * dt < 0.5` (41_oscillators.md R190). -/
def countHarmonics (dt : F64) : Nat → Nat
  | 0 => 0
  | n + 1 => countHarmonics dt n + if flt (fmul (ofInt (n + 1)) dt) fHalf then 1 else 0

/-- `NHarm(c, dts)`: at least the fundamental (41_oscillators.md R190). -/
def nHarm (p : OscP) (dts : F64) : Nat :=
  max 1 (countHarmonics (fmul dts (ofInt (2 ^ p.ctrl.ovs.val))) (i64Of p.wtHarm).toNat)

/-- `Sin(TWO_PI * frac(Float(n) * p))` (41_oscillators.md R191). -/
def harmonic (P : Params) (n : Nat) (p : F64) : F64 := P.sin (fmul fTwoPi (frac (fmul (ofInt n) p)))

/-- The weight of harmonic `n` in the additive saw (41_oscillators.md R191). -/
def sawWeight (n : Nat) : Option F64 := some (fdiv f1 (ofInt n))

/-- The weight of harmonic `n` in the additive square, odd `n` only (41_oscillators.md R192). -/
def squareWeight (n : Nat) : Option F64 := if n % 2 = 1 then some (fdiv f1 (ofInt n)) else none

/-- The weight of harmonic `n` in the additive triangle, odd `n` only, negative for `n mod 4 = 3`
(41_oscillators.md R193). -/
def triWeight (n : Nat) : Option F64 :=
  if n % 2 = 1 then
    let w := fdiv f1 (fmul (ofInt n) (ofInt n))
    some (if n % 4 = 3 then fneg w else w)
  else none

/-- The weighted sum of harmonics `1..n` in ascending order, starting from `0.0` (41_oscillators.md R191 to R193). -/
def sumHarmonics (P : Params) (weight : Nat → Option F64) (p : F64) : Nat → F64
  | 0 => f0
  | n + 1 =>
    match weight (n + 1) with
    | some w => fadd (sumHarmonics P weight p n) (fmul w (harmonic P (n + 1) p))
    | none => sumHarmonics P weight p n

/-- `K_SAW` (41_oscillators.md R191). -/
def kSaw : F64 := 0x3FE45F306DC9C883#64
/-- `K_SQR` (41_oscillators.md R192). -/
def kSqr : F64 := 0x3FF45F306DC9C883#64
/-- `K_TRI` (41_oscillators.md R193). -/
def kTri : F64 := 0x3FE9F02F6222C720#64

/-- `AddSaw` (41_oscillators.md R191). -/
def addSaw (P : Params) (q : OscP) (p dts : F64) : F64 := fmul (sumHarmonics P sawWeight p (nHarm q dts)) kSaw

/-- `AddSquare` (41_oscillators.md R192). -/
def addSquare (P : Params) (q : OscP) (p dts : F64) : F64 := fmul (sumHarmonics P squareWeight p (nHarm q dts)) kSqr

/-- `AddTri` (41_oscillators.md R193). -/
def addTri (P : Params) (q : OscP) (p dts : F64) : F64 := fmul (sumHarmonics P triWeight p (nHarm q dts)) kTri

/-- `PhaseDist` (41_oscillators.md R195). -/
def phaseDist (P : Params) (p amt : F64) : F64 :=
  let m := fmul fHalf (fsub f1 amt)
  let q := if flt p m then fdiv (fmul fHalf p) m
    else fadd fHalf (fdiv (fmul fHalf (fsub p m)) (fsub f1 m))
  P.sin (fmul fTwoPi q)

/-- The modulation routes of an FM algorithm as pairs `(i, j)` for `i -> j`, operators numbered 1 to 4
(41_oscillators.md R197). -/
def fmRoutes (alg : Fin 8) : List (Nat × Nat) :=
  match alg.val with
  | 0 => [(4, 3), (3, 2), (2, 1)]
  | 1 => [(4, 2), (3, 2), (2, 1)]
  | 2 => [(4, 1), (3, 2), (2, 1)]
  | 3 => [(4, 3), (3, 1), (2, 1)]
  | 4 => [(4, 3), (2, 1)]
  | 5 => [(4, 1), (4, 2), (4, 3)]
  | 6 => [(4, 3)]
  | _ => []

/-- The carriers of an FM algorithm (41_oscillators.md R197). -/
def fmCarriers (alg : Fin 8) : List (Fin 4) :=
  match alg.val with
  | 0 => [0]
  | 1 => [0]
  | 2 => [0]
  | 3 => [0]
  | 4 => [0, 2]
  | 5 => [0, 1, 2]
  | 6 => [0, 1, 2]
  | _ => [0, 1, 2, 3]

/-- The sum of the outputs that modulate operator `j`, in ascending order (41_oscillators.md R198). -/
def fmModulation (alg : Fin 8) (o : Vector F64 4) (j : Fin 4) : F64 :=
  [0, 1, 2, 3].foldl (fun s (i : Fin 4) => if (fmRoutes alg).contains (i.val + 1, j.val + 1) then fadd s o[i] else s) f0

/-- Operator `j`'s output, from the outputs already computed (41_oscillators.md R198). -/
def fmOperator (P : Params) (p : OscP) (st : OscState) (o : Vector F64 4) (j : Fin 4) : F64 :=
  let arg := fadd (fmul fTwoPi (frac (fadd st.opPhase[j] p.phaseOfs))) (fmul p.fmIndex (fmModulation p.ctrl.fmAlg o j))
  let arg := if j = 3 then fadd arg (fmul p.fmFb st.fmFb) else arg
  fmul p.fmLevel[j] (P.sin arg)

/-- The four operator outputs, computed from 4 down to 1 (41_oscillators.md R198). -/
def fmOutputs (P : Params) (p : OscP) (st : OscState) : Vector F64 4 :=
  [3, 2, 1, 0].foldl (fun o (j : Fin 4) => o.set j (fmOperator P p st o j)) (Vector.replicate 4 f0)

/-- `FmEval` (41_oscillators.md R198): the sample, and the state with the operator phases and the feedback advanced. -/
def fmEval (P : Params) (p : OscP) (dts : F64) (st : OscState) : F64 × OscState :=
  let o := fmOutputs P p st
  let carriers := fmCarriers p.ctrl.fmAlg
  let y := carriers.foldl (fun y j => fadd y o[j]) f0
  let phases := Vector.ofFn fun j : Fin 4 => frac (fadd st.opPhase[j] (fmul p.fmRatio[j] dts))
  (fdiv y (ofInt carriers.length), { st with fmFb := o[3], opPhase := phases })

/-- `Eval(c, p, dts)` (41_oscillators.md R177, R181): the sample at phase `ph`, and the state with the noise generator or
the FM operators advanced. -/
def evalWave (P : Params) (p : OscP) (ph dts : F64) (st : OscState) : F64 × OscState :=
  match p.ctrl.wave, p.ctrl.bl with
  | .sine, _ => (naiveSine P ph, st)
  | .triangle, .additive => (addTri P p ph dts, st)
  | .triangle, _ => (naiveTri ph, st)
  | .saw, .naive => (naiveSaw ph, st)
  | .saw, .polyBlep => (blepSaw ph dts, st)
  | .saw, .additive => (addSaw P p ph dts, st)
  | .square, .naive => (naiveSquare ph, st)
  | .square, .polyBlep => (blepSquare ph dts, st)
  | .square, .additive => (addSquare P p ph dts, st)
  | .pulse, .naive => (naivePulse ph p.pw, st)
  | .pulse, _ => (blepPulse ph dts p.pw, st)
  | .noise, _ => (noiseValue (xorshift st.noise), { st with noise := xorshift st.noise })
  | .phaseDist, _ => (phaseDist P ph p.pdAmt, st)
  | .fm, _ => fmEval P p dts st

/-- The phase advanced by one sub-step: one subtraction of `1.0` at a wrap (41_oscillators.md R175). -/
def advancePhase (dts : F64) (st : OscState) : OscState × Bool :=
  let ph := fadd st.phase dts
  if fle f1 ph then ({ st with phase := fsub ph f1 }, true) else ({ st with phase := ph }, false)

/-- The running values of a channel step: state, sum of sub-samples, wrap flag. -/
structure SubSteps where
  st : OscState
  acc : F64
  wrapped : Bool
  deriving DecidableEq, Repr

/-- One sub-step (41_oscillators.md R172, R176). -/
def subStep (P : Params) (p : OscP) (dts : F64) (r : SubSteps) : SubSteps :=
  let ph := frac (fadd r.st.phase p.phaseOfs)
  let y := evalWave P p ph dts r.st
  let next := advancePhase dts y.2
  ⟨next.1, fadd r.acc y.1, r.wrapped || next.2⟩

/-- `n` sub-steps (41_oscillators.md R172). -/
def subSteps (P : Params) (p : OscP) (dts : F64) : Nat → SubSteps → SubSteps
  | 0, r => r
  | n + 1, r => subSteps P p dts n (subStep P p dts r)

/-- Hard sync: the phases restart where `SYNC` is set and channel `c-1` wrapped; channel 0 has no `c-1`
(41_oscillators.md R201). -/
def syncPhase (p : OscP) (prev : Option OscState) (st : OscState) : OscState :=
  match prev with
  | some q => if p.ctrl.sync && q.wrap then st.phaseReset else st
  | none => st

/-- Ring modulation by channel `c-1`'s output; channel 0 has no `c-1` (41_oscillators.md R202). -/
def ringOut (p : OscP) (prev : Option OscState) (y : F64) : F64 :=
  match prev with
  | some q => if p.ctrl.ring then fmul y q.out else y
  | none => y

/-- `OscStep(c)` on the channel's state, `prev` the state of channel `c-1` where there is one (41_oscillators.md R172,
R173). -/
def oscStepState (P : Params) (p : OscP) (modIn : F64) (prev : Option OscState) (st : OscState) : OscState :=
  if p.ctrl.en then
    let m : Nat := 2 ^ p.ctrl.ovs.val
    let dts := fdiv (dtOf P p modIn) (ofInt m)
    let r := subSteps P p dts m ⟨syncPhase p prev st, f0, false⟩
    { r.st with out := ringOut p prev (fdiv r.acc (ofInt m)), wrap := r.wrapped }
  else { st with out := f0, wrap := false }

/-- The state of channel `c-1`, none for channel 0 (41_oscillators.md R201, R202). -/
def prevOsc (c : Chan) (s : State) : Option OscState :=
  if c.val = 0 then none else some s.osc[c.val - 1]

/-- `OscStep(c)` (41_oscillators.md R172). -/
def oscStep (P : Params) (c : Chan) (s : State) : State :=
  setOsc c (oscStepState P s.activeP.osc[c] s.activeM.modIn[c] (prevOsc c s) s.osc[c]) s

/-- OSC_STEP (41_oscillators.md R171); a selector above 3 is no command (30_encoding.md R103, R108; log 10). -/
def execOscStep (sel : BitVec 4) (s : State) : Host.Outcome State Fault Refusal :=
  match chanOfSel sel with
  | some c => .next (oscStep theParams c s)
  | none => .next (raiseErr .illegalCmd s)

/-- OSC_PHASE_RESET (41_oscillators.md R199); a selector above 3 is no command (log 10). -/
def execOscPhaseReset (sel : BitVec 4) (s : State) : Host.Outcome State Fault Refusal :=
  match chanOfSel sel with
  | some c => .next (setOsc c s.osc[c].phaseReset s)
  | none => .next (raiseErr .illegalCmd s)

end Sys2Proof.Machine
end

