-- ==== Sys2Proof/Machine/Access.lean ====
section
/-! DEFINITION. Register access: reading every register, and the meanings of CSR_WRITE and CSR_READ
(40_host_commands.md R132 to R135). -/

namespace Sys2Proof.Machine

/-- `ID` (10_state.md R32). -/
def idWord : Word := 0x5355423030330007

/-- A number as a U64 register reads it (00_scope.md R20); a free value where it needs more than 64 bits (DESIGN
CHOICE, log 14; safe). -/
def u64Of (n : Nat) : Word := if n < 2 ^ 64 then BitVec.ofNat 64 n else Config.wideBits n

/-- A channel's class R register; `DT` is derived from the active registers (10_state.md R39). -/
def readOscR (P : Params) (s : State) (c : Chan) : OscRReg → Word
  | .phase => s.osc[c].phase
  | .out => s.osc[c].out
  | .wrap => flagWord s.osc[c].wrap
  | .noiseState => s.osc[c].noise.zeroExtend 64
  | .dt => dtOf P s.activeP.osc[c] s.activeM.modIn[c]
  | .opPhase j => s.osc[c].opPhase[j]
  | .fmFbState => s.osc[c].fmFb

/-- A class R register: the state it names, or its defining function of the current state (10_state.md R30,
40_host_commands.md R133). -/
def readR (P : Params) (s : State) : RReg → Word
  | .id => idWord
  | .fsHz => P.fs
  | .maxDlyN => u64Of P.maxDly
  | .maxCombN => u64Of P.maxComb
  | .maxFirN => u64Of P.maxFir
  | .noscN => 4
  | .status => s.status
  | .tickCount => s.tickCount
  | .outL => s.outL
  | .outR => s.outR
  | .oscMix => s.oscMix
  | .osc c r => readOscR P s c r
  | .cutoffEff => cutoffEff s.activeP.filt s.activeM
  | .filtG => filtG P s.activeP.filt s.activeM
  | .fb0 => (filtTuple P s.activeP.filt s.activeM).b0
  | .fb1 => (filtTuple P s.activeP.filt s.activeM).b1
  | .fb2 => (filtTuple P s.activeP.filt s.activeM).b2
  | .fa1 => (filtTuple P s.activeP.filt s.activeM).a1
  | .fa2 => (filtTuple P s.activeP.filt s.activeM).a2
  | .filtOut => s.filt.out
  | .combLen => u64Of (combLen P s.activeP.filt (filtRate P s.activeP.filt.ctrl)).toNat
  | .ladderY4 => s.filt.ladderY4
  | .filtStatus => flagWord (selfOsc s.activeP.filt)
  | .dlyOutL => s.dly.outL
  | .dlyOutR => s.dly.outR
  | .dlenL => s.dly.lenL
  | .dlenR => s.dly.lenR
  | .dwIdx => u64Of s.dly.dw
  | .lfoL => s.dly.lfoL
  | .lfoR => s.dly.lfoR
  | .phWow => s.dly.phWow
  | .phFlut => s.dly.phFlut
  | .dnoiseState => s.dly.noise.zeroExtend 64
  | .blpL => s.dly.blpL
  | .blpR => s.dly.blpR
  | .efxOutL => s.efx.outL
  | .efxOutR => s.efx.outR
  | .phLfo => s.efx.phLfo
  | .irDecayGen => s.efx.irDecayGen
  | .eb0 => (toneCoefs P s.activeP.efx).b0
  | .eb1 => (toneCoefs P s.activeP.efx).b1
  | .eb2 => (toneCoefs P s.activeP.efx).b2
  | .ea1 => (toneCoefs P s.activeP.efx).a1
  | .ea2 => (toneCoefs P s.activeP.efx).a2
  | .phCoef => s.efx.phCoef
  | .hwIdx => u64Of s.efx.hw

/-- What a `CSR_READ` of register `r` returns; `FIR_DATA` reads the window's element (40_host_commands.md R133, R134). -/
def readReg (P : Params) (s : State) : Reg → Word
  | .p r => s.shadowP.read r
  | .m r => s.shadowM.read r
  | .d .inL => s.inL
  | .d .inR => s.inR
  | .d .filtIn => s.filtIn
  | .d .firAddr => s.firAddr
  | .d .firData => windowRead s
  | .r r => readR P s r

/-- A `CSR_WRITE` of a class D register; `FIR_DATA` is the window write (40_host_commands.md R132, 20_memory.md R83). -/
def writeD (P : Params) (r : DReg) (v : Word) (s : State) : State :=
  match r with
  | .inL => { s with inL := v }
  | .inR => { s with inR := v }
  | .filtIn => { s with filtIn := v }
  | .firAddr => { s with firAddr := v &&& firAddrMask }
  | .firData => if windowOk P s then windowAdvance (windowWrite v s) else raiseErr .firRange s

/-- `CSR_WRITE(a, v)` of a register that exists (40_host_commands.md R132). -/
def writeReg (P : Params) (r : Reg) (v : Word) (s : State) : State :=
  match r with
  | .r _ => raiseErr .roWrite s
  | .p r =>
    match writeValue (r.kind P) v with
    | some x => { s with shadowP := s.shadowP.set r x }
    | none => raiseErr .badValue s
  | .m r =>
    match writeValue r.kind v with
    | some x => { s with shadowM := s.shadowM.set r x }
    | none => raiseErr .badValue s
  | .d r => writeD P r v s

/-- `CSR_WRITE(a, v)` (40_host_commands.md R132). -/
def csrWrite (P : Params) (addr : BitVec 12) (v : Word) (s : State) : State :=
  match regAt addr with
  | some r => writeReg P r v s
  | none => raiseErr .badCsr s

/-- `CSR_READ(a)` with its response beat (40_host_commands.md R133, 20_memory.md R83). -/
def csrRead (P : Params) (addr : BitVec 12) (s : State) : State :=
  match regAt addr with
  | none => failRead .badCsr s
  | some (.d .firData) =>
    if windowOk P s then respond (windowRead s) (windowAdvance s) else failRead .firRange s
  | some r => respond (readReg P s r) s

/-- CSR_WRITE (40_host_commands.md R132). -/
def execCsrWrite (addr : BitVec 12) (data : Word) (s : State) : Host.Outcome State Fault Refusal :=
  .next (csrWrite theParams addr data s)

/-- CSR_READ (40_host_commands.md R133). -/
def execCsrRead (addr : BitVec 12) (s : State) : Host.Outcome State Fault Refusal := .next (csrRead theParams addr s)

end Sys2Proof.Machine
end

