-- ==== Sys2Proof/Machine/HostCommands.lean ====
section
/-! DEFINITION. The host commands that belong to no one unit: NOP, COMMIT, MODTICK, SOFT_RESET, RESET_UNIT, CLR_ERR and
TICK (40_host_commands.md). -/

namespace Sys2Proof.Machine

/-- NOP (40_host_commands.md R131). -/
def execNop (s : State) : Host.Outcome State Fault Refusal := .next s

/-- COMMIT (40_host_commands.md R138). -/
def execCommit (s : State) : Host.Outcome State Fault Refusal := .next (commitState theParams s)

/-- MODTICK (40_host_commands.md R140). -/
def execModtick (s : State) : Host.Outcome State Fault Refusal := .next (publishM s)

/-- SOFT_RESET (40_host_commands.md R141). -/
def execSoftReset (s : State) : Host.Outcome State Fault Refusal := .next (softResetState theParams s)

/-- RESET_UNIT (40_host_commands.md R142); a selector above 6 is no command (30_encoding.md R103, R108; log 10). -/
def execResetUnit (sel : BitVec 4) (s : State) : Host.Outcome State Fault Refusal :=
  match unitOfSel sel with
  | some u => .next (resetUnitState u s)
  | none => .next (raiseErr .illegalCmd s)

/-- CLR_ERR (40_host_commands.md R145). -/
def execClrErr (s : State) : Host.Outcome State Fault Refusal := .next (clearErr s)

/-- The four channels stepped in order 0 to 3 (40_host_commands.md R150). -/
def stepOscillators (P : Params) (s : State) : State := oscStep P 3 (oscStep P 2 (oscStep P 1 (oscStep P 0 s)))

/-- The mix of the enabled channels, in order from `+0.0` (40_host_commands.md R150). -/
def mixOscillators (s : State) : F64 :=
  [0, 1, 2, 3].foldl
    (fun mix (c : Chan) =>
      if s.activeP.osc[c].ctrl.en then fadd mix (fmul s.activeP.osc[c].gain s.osc[c].out) else mix)
    f0

/-- A stereo sample on its way through the path, with the state. -/
structure Path where
  l : F64
  r : F64
  s : State
  deriving DecidableEq, Repr

/-- The voice filter in the path, where `FILT_EN = 1`; the result goes to both channels (40_host_commands.md R150,
R152). -/
def pathFilter (P : Params) (v : F64) (s : State) : Path :=
  if s.activeP.ctrl.filtEn then
    let t := filtStep P v s
    ⟨t.filt.out, t.filt.out, t⟩
  else ⟨v, v, s⟩

/-- The delay-line unit in the path, where `DLY_EN = 1` (40_host_commands.md R150, R151). -/
def pathDelay (P : Params) (p : Path) : Path :=
  if p.s.activeP.ctrl.dlyEn then
    let t := dlyStep P p.l p.r p.s
    ⟨t.dly.outL, t.dly.outR, t⟩
  else p

/-- The effect-filter unit in the path, where `EFX_EN = 1` (40_host_commands.md R150, R151). -/
def pathEffect (P : Params) (p : Path) : Path :=
  if p.s.activeP.ctrl.efxEn then
    let t := efxStep P p.l p.r p.s
    ⟨t.efx.outL, t.efx.outR, t⟩
  else p

/-- The effects in `CHAIN_ORDER` (40_host_commands.md R150). -/
def pathEffects (P : Params) (p : Path) : Path :=
  if p.s.activeP.ctrl.chainOrder then pathDelay P (pathEffect P p) else pathEffect P (pathDelay P p)

/-- `TICK`: one sample of the voice path (40_host_commands.md R150). -/
def tickState (P : Params) (s : State) : State :=
  let t := stepOscillators P s
  let mix := mixOscillators t
  let p := pathEffects P (pathFilter P mix { t with oscMix := mix })
  { p.s with
    outL := fmul p.l p.s.activeM.amp
    outR := fmul p.r p.s.activeM.amp
    tickCount := p.s.tickCount + 1 }

/-- TICK (40_host_commands.md R150). -/
def execTick (s : State) : Host.Outcome State Fault Refusal := .next (tickState theParams s)

end Sys2Proof.Machine
end

