-- ==== Sys2Proof/Machine/Dispatch.lean ====
section
/-! DEFINITION. One arm per command. -/

namespace Sys2Proof.Machine

def exec (i : Instr) (s : State) : Host.Outcome State Fault Refusal :=
  match i with
  | .nop => Sys2Proof.Machine.execNop s
  | .tick => Sys2Proof.Machine.execTick s
  | .commit => Sys2Proof.Machine.execCommit s
  | .modtick => Sys2Proof.Machine.execModtick s
  | .softReset => Sys2Proof.Machine.execSoftReset s
  | .resetUnit sel => Sys2Proof.Machine.execResetUnit sel s
  | .clrErr => Sys2Proof.Machine.execClrErr s
  | .oscStep sel => Sys2Proof.Machine.execOscStep sel s
  | .oscPhaseReset sel => Sys2Proof.Machine.execOscPhaseReset sel s
  | .filtProc => Sys2Proof.Machine.execFiltProc s
  | .dlyProc => Sys2Proof.Machine.execDlyProc s
  | .efxProc => Sys2Proof.Machine.execEfxProc s
  | .irGen => Sys2Proof.Machine.execIrGen s
  | .vowelLoad sel => Sys2Proof.Machine.execVowelLoad sel s
  | .csrWrite addr data => Sys2Proof.Machine.execCsrWrite addr data s
  | .csrRead addr => Sys2Proof.Machine.execCsrRead addr s

end Sys2Proof.Machine
end

