-- ==== Sys2Proof/Machine/Step.lean ====
section
/-! DEFINITION. One step: the block takes the next transaction of the port and performs it (40_host_commands.md R130). -/

namespace Sys2Proof.Machine

/-- `Step(state, w, data)` on the next pending transaction; with none, nothing changes (40_host_commands.md R130,
60_exceptions.md R385; log 1). -/
def step (s : State) : Host.Outcome State Fault Refusal :=
  match s.port.pending with
  | [] => .next s
  | t :: _ =>
    match decode t with
    | .command i => exec i (dropPending s)
    | .illegal _ => .next (illegalWord t.word (dropPending s))

/-- `s` with the transaction whose bits are `w` put before the pending ones, where `step` takes its next. -/
def State.withFetchWord (s : State) (nbits w : Nat) : State :=
  { s with port := { s.port with pending := transactionOfBits nbits w :: s.port.pending } }

end Sys2Proof.Machine
end

