-- ==== Sys2Proof/Safety.lean ====
section
/-! DEFINITION. What claims speak of: the internal memories by name, the value of a binary64 pattern, the legal values of
a register, and the invariants that a safe run keeps. Nothing stops the block (60_exceptions.md R374), so a safe run is
one whose every state satisfies them. -/

namespace Sys2Proof.Machine

/-- The internal memories (20_memory.md R80). -/
inductive Space where
  | comb | dbufL | dbufR | hL | hR | histL | histR
  deriving DecidableEq, Repr

/-- The number of elements of an internal memory (20_memory.md R80). -/
def Space.size (P : Params) : Space → Nat
  | .comb => P.maxComb
  | .dbufL => P.maxDly
  | .dbufR => P.maxDly
  | .hL => P.maxFir
  | .hR => P.maxFir
  | .histL => P.maxFir
  | .histR => P.maxFir

/-- An internal memory of a state. -/
def State.mem (s : State) : Space → Mem
  | .comb => s.filt.cline
  | .dbufL => s.dly.bufL
  | .dbufR => s.dly.bufR
  | .hL => s.efx.hL
  | .hR => s.efx.hR
  | .histL => s.efx.histL
  | .histR => s.efx.histR

/-- Element `i` of an internal memory, `MemRead(space, i)` (00_scope.md R12). -/
def State.element (s : State) (sp : Space) (i : Nat) : F64 := memRead (s.mem sp) i

/-- The state a transaction of the port works on: its next transaction taken. -/
def State.taken (s : State) (rest : List Transaction) : State := { s with port := { s.port with pending := rest } }

/-- The rational number a finite binary64 pattern stands for (20_memory.md R85). -/
def ratOf (x : F64) : ℚ := (signedInt (signBit x) (significand x) : ℚ) * (2 : ℚ) ^ exponent x

/-- `y` is finite and a correct rounding of `exact`: no finite value is nearer, and one as near as `y` and different from it
is reached only from an even `y` (00_scope.md R14: to nearest, ties to even). -/
def RoundedTo (exact : ℚ) (y : F64) : Prop :=
  isFinite y = true ∧
  (∀ z, isFinite z = true → |ratOf y - exact| ≤ |ratOf z - exact|) ∧
  (∀ z, isFinite z = true → ratOf z ≠ ratOf y → |ratOf z - exact| = |ratOf y - exact| → significand y % 2 = 0)

/-- The magnitude from which rounding to nearest gives an infinity: `2 ^ 1024 - 2 ^ 970` (00_scope.md R14). -/
def overflowBound : ℚ := 2 ^ 1024 - 2 ^ 970

/-- `y` is what rounding `exact` to binary64 gives: the nearest finite value below `overflowBound`, else the infinity of
`exact`'s sign (00_scope.md R14). -/
def IsRounding (exact : ℚ) (y : F64) : Prop :=
  if |exact| < overflowBound then RoundedTo exact y else y = signedInf (decide (exact < 0))

/-- The patterns a P or M register can hold after a `CSR_WRITE` (40_host_commands.md R135, R136). -/
def RegKind.Admits (k : RegKind) (x : Word) : Prop :=
  match k with
  | .f64 lo hi => inRange lo hi x = true
  | .i64 lo hi => lo ≤ x.toInt ∧ x.toInt ≤ hi
  | .seed => x ≠ 0 ∧ x.toNat < 2 ^ 32
  | .ctrl => x &&& 0x1F = x
  | .oscCtrl => (OscCtrl.ofWord x).isSome = true ∧ x &&& 0x3FFF = x
  | .filtCtrl => (FiltCtrl.ofWord x).isSome = true ∧ x &&& 0xFF = x
  | .dlyCtrl => (DlyCtrl.ofWord x).isSome = true ∧ x &&& 0x1FF = x
  | .efxCtrl => (EfxCtrl.ofWord x).isSome = true ∧ x &&& 0xF = x

/-- Every P register of a bank holds an admitted value (10_state.md R39, R44, R50, R56). -/
def PBank.InRange (P : Params) (b : PBank) : Prop := ∀ r : PReg, (r.kind P).Admits (b.read r)

/-- Every M register of a bank holds an admitted value (10_state.md R34). -/
def MBank.InRange (b : MBank) : Prop := ∀ r : MReg, r.kind.Admits (b.read r)

/-- Both copies of every P and M register hold admitted values. -/
structure State.ParametersOk (P : Params) (s : State) : Prop where
  shadowP : s.shadowP.InRange P
  activeP : s.activeP.InRange P
  shadowM : s.shadowM.InRange
  activeM : s.activeM.InRange

/-- Every internal memory is in its canonical form with no index outside it, and the three circular write indices are
inside their memories (20_memory.md R81, R82). -/
structure State.MemoriesOk (P : Params) (s : State) : Prop where
  mem : ∀ sp, memWf (sp.size P) (s.mem sp) = true
  cw : s.filt.cw < P.maxComb
  dw : s.dly.dw < P.maxDly
  hw : s.efx.hw < P.maxFir

/-- `STATUS` is 0 or records one of the five errors, and `FIR_ADDR` holds no reserved bit (60_exceptions.md R370,
10_state.md R35, R53). -/
structure State.FieldsOk (s : State) : Prop where
  status : s.status = 0 ∨ ∃ e : Err, s.status = statusOf e
  firAddr : s.firAddr.toNat < 2 ^ 33

/-- No seed and no noise generator is at 0 (10_state.md R41, 41_oscillators.md R185). -/
structure State.NoiseOk (s : State) : Prop where
  shadowOsc : ∀ c : Chan, s.shadowP.osc[c].noiseSeed ≠ 0
  activeOsc : ∀ c : Chan, s.activeP.osc[c].noiseSeed ≠ 0
  shadowDly : s.shadowP.dly.noiseSeed ≠ 0
  activeDly : s.activeP.dly.noiseSeed ≠ 0
  shadowIr : s.shadowP.efx.irSeedL ≠ 0 ∧ s.shadowP.efx.irSeedR ≠ 0
  activeIr : s.activeP.efx.irSeedL ≠ 0 ∧ s.activeP.efx.irSeedR ≠ 0
  osc : ∀ c : Chan, s.osc[c].noise ≠ 0
  dly : s.dly.noise ≠ 0

/-- A phase in `[0, 1)` (10_state.md R39, R50, R56). -/
def IsPhase (x : F64) : Prop := fle f0 x = true ∧ flt x f1 = true

/-- Every phase accumulator is in `[0, 1)` (10_state.md R39, R50, R56; 41_oscillators.md R175). -/
structure State.PhasesOk (s : State) : Prop where
  phase : ∀ c : Chan, IsPhase s.osc[c].phase
  opPhase : ∀ (c : Chan) (j : Fin 4), IsPhase s.osc[c].opPhase[j]
  lfoL : IsPhase s.dly.lfoL
  lfoR : IsPhase s.dly.lfoR
  phWow : IsPhase s.dly.phWow
  phFlut : IsPhase s.dly.phFlut
  phLfo : IsPhase s.efx.phLfo

/-- What every state of a safe run satisfies. -/
structure State.Ok (P : Params) (s : State) : Prop where
  parameters : s.ParametersOk P
  memories : s.MemoriesOk P
  fields : s.FieldsOk
  noise : s.NoiseOk
  phases : s.PhasesOk

/-- A safe run from `s`: every number of steps ends in a next state, and it is in order. -/
def SafeFrom (s : State) : Prop := ∀ n, ∃ t, Sys2Proof.core.run n s = .next t ∧ State.Ok theParams t

/-- What the claims read of a state after a command: the registers and memories a command of the sound path can write,
apart from the shadow copies, the class D registers, `STATUS` and the port. -/
structure Sound where
  activeP : PBank
  activeM : MBank
  tickCount : Word
  outL : F64
  outR : F64
  oscMix : F64
  osc : Vector OscState 4
  filt : FiltState
  dly : DlyState
  efx : EfxState
  deriving DecidableEq, Repr

/-- The part of a state that `Sound` names. -/
def State.sound (s : State) : Sound where
  activeP := s.activeP
  activeM := s.activeM
  tickCount := s.tickCount
  outL := s.outL
  outR := s.outR
  oscMix := s.oscMix
  osc := s.osc
  filt := s.filt
  dly := s.dly
  efx := s.efx

/-- The voice filter's place in the path with input `x`: `FILT_PROC` on `x` where `FILT_EN = 1`, else nothing; `y` is what
it passes on, `u` the state after it (40_host_commands.md R150). -/
def FilterStage (s : State) (x y : F64) (u : State) : Prop :=
  if s.activeP.ctrl.filtEn then
    ∃ t, exec .filtProc { s with filtIn := x } = .next t ∧ y = t.filt.out ∧ u = { s with filt := t.filt }
  else y = x ∧ u = s

/-- The delay-line unit's place in the path: `DLY_PROC` on the pair where `DLY_EN = 1` (40_host_commands.md R150). -/
def DelayStage (s : State) (x y : F64 × F64) (u : State) : Prop :=
  if s.activeP.ctrl.dlyEn then
    ∃ t, exec .dlyProc { s with inL := x.1, inR := x.2 } = .next t ∧ y = (t.dly.outL, t.dly.outR) ∧
      u = { s with dly := t.dly }
  else y = x ∧ u = s

/-- The effect-filter unit's place in the path: `EFX_PROC` on the pair where `EFX_EN = 1` (40_host_commands.md R150). -/
def EffectStage (s : State) (x y : F64 × F64) (u : State) : Prop :=
  if s.activeP.ctrl.efxEn then
    ∃ t, exec .efxProc { s with inL := x.1, inR := x.2 } = .next t ∧ y = (t.efx.outL, t.efx.outR) ∧
      u = { s with efx := t.efx }
  else y = x ∧ u = s

/-- A channel's control fields changed in the active bank, as a `COMMIT` of other `OSC_CTRL` fields would. -/
def State.withOscCtrl (s : State) (c : Chan) (f : OscCtrl → OscCtrl) : State :=
  { s with
    activeP := { s.activeP with osc := s.activeP.osc.set c { s.activeP.osc[c] with ctrl := f s.activeP.osc[c].ctrl } } }

/-- The selector that names channel `c` (30_encoding.md R103). -/
def selOf (c : Chan) : BitVec 4 := BitVec.ofNat 4 c.val

/-- The reserved register indices (10_state.md R31, R32, R39, R44, R50, R56). -/
def IsReserved (a : Nat) : Prop :=
  a ∈ [0x006, 0x007] ∨ (0x00B ≤ a ∧ a ≤ 0x00F) ∨ (0x012 ≤ a ∧ a ≤ 0x017) ∨ (0x01D ≤ a ∧ a ≤ 0x0FF) ∨
  (0x100 ≤ a ∧ a ≤ 0x1FF ∧ ((a - 0x100) % 0x40 = 0x17 ∨ 0x22 ≤ (a - 0x100) % 0x40)) ∨
  (0x20D ≤ a ∧ a ≤ 0x20F) ∨ (0x219 ≤ a ∧ a ≤ 0x21F) ∨ (0x22C ≤ a ∧ a ≤ 0x2FF) ∨
  (0x312 ≤ a ∧ a ≤ 0x317) ∨ (0x324 ≤ a ∧ a ≤ 0x3FF) ∨
  (0x411 ≤ a ∧ a ≤ 0x417) ∨ 0x423 ≤ a

/-- The reset value of every register that has a fixed one, by index, outside the oscillator channels
(70_reset_and_hazards.md R401). -/
def resetWords : List (BitVec 12 × Word) :=
  [(0x000#12, 0x5355423030330007#64), (0x005#12, 0x0000000000000004#64),
   (0x008#12, 0x0000000000000010#64), (0x009#12, 0x405E000000000000#64),
   (0x00A#12, 0x3FF0000000000000#64), (0x010#12, 0x0000000000000000#64),
   (0x011#12, 0x0000000000000000#64), (0x018#12, 0x0000000000000000#64),
   (0x019#12, 0x0000000000000000#64), (0x01A#12, 0x0000000000000000#64),
   (0x01B#12, 0x0000000000000000#64), (0x01C#12, 0x0000000000000000#64)] ++
  [(0x200#12, 0x0000000000000000#64), (0x201#12, 0x408F400000000000#64),
   (0x202#12, 0x0000000000000000#64), (0x203#12, 0x3FF0000000000000#64),
   (0x204#12, 0x0000000000000000#64), (0x205#12, 0x407B800000000000#64),
   (0x206#12, 0x0000000000000000#64), (0x207#12, 0x0000000000000000#64),
   (0x208#12, 0x0000000000000000#64), (0x209#12, 0x0000000000000000#64),
   (0x20A#12, 0x3F847AE147AE147B#64), (0x20B#12, 0x3FE0000000000000#64),
   (0x20C#12, 0x3FE0000000000000#64), (0x227#12, 0x0000000000000000#64),
   (0x228#12, 0x0000000000000000#64), (0x22A#12, 0x0000000000000000#64)] ++
  [(0x300#12, 0x0000000000000040#64), (0x301#12, 0x3FD0000000000000#64),
   (0x302#12, 0x3FD3333333333333#64), (0x303#12, 0x3FE0000000000000#64),
   (0x304#12, 0x3FF0000000000000#64), (0x305#12, 0x3FE0000000000000#64),
   (0x306#12, 0x3F60624DD2F1A9FC#64), (0x307#12, 0x3F8EB851EB851EB8#64),
   (0x308#12, 0x3FF199999999999A#64), (0x309#12, 0x0000000000000400#64),
   (0x30A#12, 0x40C3880000000000#64), (0x30B#12, 0x40B3880000000000#64),
   (0x30C#12, 0x3F50624DD2F1A9FC#64), (0x30D#12, 0x3FE0000000000000#64),
   (0x30E#12, 0x3F60624DD2F1A9FC#64), (0x30F#12, 0x4018000000000000#64),
   (0x310#12, 0x3F33A92A30553261#64), (0x311#12, 0x000000006A09E667#64),
   (0x318#12, 0x0000000000000000#64), (0x319#12, 0x0000000000000000#64),
   (0x31A#12, 0x3FF0000000000000#64), (0x31B#12, 0x3FF0000000000000#64),
   (0x31C#12, 0x0000000000000000#64), (0x31D#12, 0x0000000000000000#64),
   (0x31E#12, 0x0000000000000000#64), (0x31F#12, 0x0000000000000000#64),
   (0x320#12, 0x0000000000000000#64), (0x321#12, 0x000000006A09E667#64),
   (0x322#12, 0x0000000000000000#64), (0x323#12, 0x0000000000000000#64)] ++
  [(0x400#12, 0x0000000000000000#64), (0x401#12, 0x40B3880000000000#64),
   (0x402#12, 0x3FE6A09E667F3BCD#64), (0x403#12, 0x3FF0000000000000#64),
   (0x404#12, 0x0000000000000004#64), (0x405#12, 0x3FE0000000000000#64),
   (0x406#12, 0x4069000000000000#64), (0x407#12, 0x409F400000000000#64),
   (0x408#12, 0x3FE0000000000000#64), (0x409#12, 0x3FF0000000000000#64),
   (0x40A#12, 0x3FE0000000000000#64), (0x40D#12, 0x0000000000000000#64),
   (0x40F#12, 0x00000000BB67AE85#64), (0x410#12, 0x000000003C6EF372#64),
   (0x418#12, 0x0000000000000000#64), (0x419#12, 0x0000000000000000#64),
   (0x41A#12, 0x0000000000000000#64), (0x41B#12, 0x3FF0000000000000#64),
   (0x421#12, 0x0000000000000000#64), (0x422#12, 0x0000000000000000#64)]

/-- The reset value of every register of an oscillator channel that has a fixed one, by offset; the two noise registers
differ by channel (70_reset_and_hazards.md R401). -/
def resetOscWords : List (BitVec 12 × Word) :=
  [(0x000#12, 0x0000000000000020#64), (0x001#12, 0x407B800000000000#64),
   (0x002#12, 0x0000000000000000#64), (0x003#12, 0x0000000000000000#64),
   (0x004#12, 0x0000000000000000#64), (0x005#12, 0x3FF0000000000000#64),
   (0x006#12, 0x3FE0000000000000#64), (0x007#12, 0x0000000000000000#64),
   (0x008#12, 0x0000000000000000#64), (0x009#12, 0x0000000000000040#64),
   (0x00A#12, 0x3FF0000000000000#64), (0x00B#12, 0x0000000000000000#64),
   (0x00C#12, 0x3FF0000000000000#64), (0x00D#12, 0x3FF0000000000000#64),
   (0x00E#12, 0x3FF0000000000000#64), (0x00F#12, 0x3FF0000000000000#64),
   (0x010#12, 0x3FF0000000000000#64), (0x011#12, 0x3FF0000000000000#64),
   (0x012#12, 0x3FF0000000000000#64), (0x013#12, 0x3FF0000000000000#64),
   (0x014#12, 0x0000000000000000#64), (0x015#12, 0x0000000000000000#64),
   (0x018#12, 0x0000000000000000#64), (0x019#12, 0x0000000000000000#64),
   (0x01A#12, 0x0000000000000000#64), (0x01D#12, 0x0000000000000000#64),
   (0x01E#12, 0x0000000000000000#64), (0x01F#12, 0x0000000000000000#64),
   (0x020#12, 0x0000000000000000#64), (0x021#12, 0x0000000000000000#64)]

/-- The `type` and `range` columns of every P and M register outside the oscillator channels, by index; the ends of a
binary64 range as patterns (10_state.md R32, R34, R44, R50, R56). -/
def rangeWords (maxFir : Nat) : List (BitVec 12 × RegKind) :=
  [(0x008#12, .ctrl), (0x009#12, .f64 f1 0x4072C00000000000#64), (0x00A#12, .f64 f0 f1)] ++
  [(0x200#12, .filtCtrl), (0x201#12, .f64 0x4034000000000000#64 0x40D3880000000000#64), (0x202#12, .f64 f0 f1),
   (0x203#12, .f64 f0 0x4024000000000000#64), (0x204#12, .f64 f0 f1), (0x205#12, .f64 f0 0x40D3880000000000#64),
   (0x206#12, .f64 fNeg1 f1), (0x207#12, .f64 fNeg1 f1), (0x208#12, .f64 fNeg1 f1), (0x209#12, .f64 fNeg1 f1),
   (0x20A#12, .f64 f0 f1), (0x20B#12, .f64 0xBFEFAE147AE147AE#64 0x3FEFAE147AE147AE#64), (0x20C#12, .f64 f0 f1),
   (0x210#12, .f64 0x4034000000000000#64 0x40D3880000000000#64), (0x211#12, .f64 f1 0x40D3880000000000#64),
   (0x212#12, .f64 f0 f1), (0x213#12, .f64 0x4034000000000000#64 0x40D3880000000000#64),
   (0x214#12, .f64 f1 0x40D3880000000000#64), (0x215#12, .f64 f0 f1),
   (0x216#12, .f64 0x4034000000000000#64 0x40D3880000000000#64), (0x217#12, .f64 f1 0x40D3880000000000#64),
   (0x218#12, .f64 f0 f1)] ++
  [(0x300#12, .dlyCtrl), (0x301#12, .f64 f0 0x4024000000000000#64), (0x302#12, .f64 f0 0x3FEFAE147AE147AE#64),
   (0x303#12, .f64 f0 f1), (0x304#12, .f64 f0 f1), (0x305#12, .f64 0x3F847AE147AE147B#64 0x4024000000000000#64),
   (0x306#12, .f64 f0 0x3F947AE147AE147B#64), (0x307#12, .f64 0x3F50624DD2F1A9FC#64 0x3FA999999999999A#64),
   (0x308#12, .f64 f1 0x4000000000000000#64), (0x309#12, .i64 1 8192),
   (0x30A#12, .f64 0x4059000000000000#64 0x412E848000000000#64),
   (0x30B#12, .f64 0x4034000000000000#64 0x40D3880000000000#64), (0x30C#12, .f64 f0 0x3FB999999999999A#64),
   (0x30D#12, .f64 0x3F847AE147AE147B#64 0x4014000000000000#64), (0x30E#12, .f64 f0 0x3F847AE147AE147B#64),
   (0x30F#12, .f64 f1 0x403E000000000000#64), (0x310#12, .f64 f0 0x3F60624DD2F1A9FC#64), (0x311#12, .seed)] ++
  [(0x400#12, .efxCtrl), (0x401#12, .f64 0x4034000000000000#64 0x40D3880000000000#64),
   (0x402#12, .f64 0x3FB999999999999A#64 0x4039000000000000#64), (0x403#12, .f64 f0 f1), (0x404#12, .i64 2 12),
   (0x405#12, .f64 0x3F847AE147AE147B#64 0x4024000000000000#64),
   (0x406#12, .f64 0x4034000000000000#64 0x40D3880000000000#64),
   (0x407#12, .f64 0x4034000000000000#64 0x40D3880000000000#64), (0x408#12, .f64 f0 0x3FEE666666666666#64),
   (0x409#12, .f64 0x3F1A36E2EB1C432D#64 0x4059000000000000#64), (0x40A#12, .f64 f0 f1), (0x40B#12, .i64 1 maxFir),
   (0x40C#12, .i64 1 maxFir), (0x40F#12, .seed), (0x410#12, .seed)]

/-- The `type` and `range` columns of every P and M register of an oscillator channel, by offset (10_state.md R39). -/
def oscRangeWords : List (BitVec 12 × RegKind) :=
  [(0x000#12, .oscCtrl), (0x001#12, .f64 f0 0x40D3880000000000#64), (0x002#12, .i64 (-3) 3),
   (0x003#12, .i64 (-12) 12), (0x004#12, .f64 0xC059000000000000#64 0x4059000000000000#64), (0x005#12, .f64 f0 f1),
   (0x006#12, .f64 0x3F847AE147AE147B#64 0x3FEFAE147AE147AE#64), (0x007#12, .f64 f0 f1),
   (0x008#12, .f64 f0 0x3FEFAE147AE147AE#64), (0x009#12, .i64 1 64), (0x00A#12, .f64 f0 0x4030000000000000#64),
   (0x00B#12, .f64 f0 0x4010000000000000#64), (0x00C#12, .f64 0x3FB0000000000000#64 0x4040000000000000#64),
   (0x00D#12, .f64 0x3FB0000000000000#64 0x4040000000000000#64),
   (0x00E#12, .f64 0x3FB0000000000000#64 0x4040000000000000#64),
   (0x00F#12, .f64 0x3FB0000000000000#64 0x4040000000000000#64), (0x010#12, .f64 f0 f1), (0x011#12, .f64 f0 f1),
   (0x012#12, .f64 f0 f1), (0x013#12, .f64 f0 f1), (0x014#12, .f64 fNeg1 f1),
   (0x015#12, .f64 0xC048000000000000#64 0x4048000000000000#64), (0x016#12, .seed)]

/-- The index of offset `o` of oscillator channel `c` (10_state.md R31). -/
def oscIndex (c : Chan) (o : BitVec 12) : BitVec 12 := 0x100#12 + BitVec.ofNat 12 (0x40 * c.val) + o

/-- `DT(c)` written out from 41_oscillators.md R174. -/
def ruleDt (s : State) (c : Chan) : F64 :=
  let q := s.activeP.osc[c]
  let t := fadd (ofInt q.oct.toInt) (fdiv (fadd (ofInt q.semi.toInt) (fdiv q.detune (ofInt 100))) (ofInt 12))
  let f := fmul (fmul q.freq (theParams.exp2 t)) (theParams.exp2 (fdiv (fmul s.activeM.modIn[c] q.modDepth) (ofInt 12)))
  fmax (fmin (fdiv f theParams.fs) fHalf) f0

/-- `x <- x ^ (x << 13); x <- x ^ (x >> 17); x <- x ^ (x << 5)`, written out from 41_oscillators.md R185. -/
def ruleDraw (x : U32) : U32 :=
  let a := x ^^^ (x <<< 13)
  let b := a ^^^ (a >>> 17)
  b ^^^ (b <<< 5)

/-- `Float(x) / 2147483648.0 - 1.0` (41_oscillators.md R185). -/
def ruleNoise (x : U32) : F64 := fsub (fdiv (ofInt x.toNat) 0x41E0000000000000#64) f1

/-- `blep(t, dt)` written out from 41_oscillators.md R186. -/
def ruleBlep (t dt : F64) : F64 :=
  if flt t dt = true then fsub (fsub (fadd (fdiv t dt) (fdiv t dt)) (fmul (fdiv t dt) (fdiv t dt))) f1
  else if flt (fsub f1 dt) t = true then
    fadd (fadd (fadd (fmul (fdiv (fsub t f1) dt) (fdiv (fsub t f1) dt)) (fdiv (fsub t f1) dt)) (fdiv (fsub t f1) dt)) f1
  else f0

/-- The additive sums written out from 41_oscillators.md R190 to R193, from the per-sample increment `dt`: the terms of the
harmonics `n` that `used` keeps, in ascending order from `0.0`. -/
def ruleSeries (q : OscP) (dt p : F64) (used : Nat → Bool) (weight : Nat → F64) : F64 :=
  let harmonics : List Nat := (List.range q.wtHarm.toInt.toNat).map (· + 1)
  let below := (harmonics.filter fun (n : Nat) => flt (fmul (ofInt n) dt) fHalf).length
  (((List.range (max 1 below)).map (· + 1)).filter used).foldl
    (fun s (n : Nat) => fadd s (fmul (weight n) (theParams.sin (fmul fTwoPi (frac (fmul (ofInt n) p)))))) f0

/-- The modulation routes `(FM_ALG, i, j)` for `i -> j` of 41_oscillators.md R197. -/
def fmRouteWords : List (Nat × Nat × Nat) :=
  [(0, 4, 3), (0, 3, 2), (0, 2, 1), (1, 4, 2), (1, 3, 2), (1, 2, 1), (2, 4, 1), (2, 3, 2), (2, 2, 1), (3, 4, 3), (3, 3, 1),
   (3, 2, 1), (4, 4, 3), (4, 2, 1), (5, 4, 1), (5, 4, 2), (5, 4, 3), (6, 4, 3)]

/-- The carriers `(FM_ALG, j)` of 41_oscillators.md R197. -/
def fmCarrierWords : List (Nat × Nat) :=
  [(0, 1), (1, 1), (2, 1), (3, 1), (4, 1), (4, 3), (5, 1), (5, 2), (5, 3), (6, 1), (6, 2), (6, 3), (7, 1), (7, 2), (7, 3),
   (7, 4)]

/-- `FmEval` written out from 41_oscillators.md R198, operator 4 first: the sample, and the channel with the feedback and
the operator phases advanced. -/
def ruleFm (q : OscP) (dts : F64) (o : OscState) : F64 × OscState :=
  let sum (j : Nat) (outputs : List (Nat × F64)) : F64 :=
    outputs.foldl (fun s e => if (q.ctrl.fmAlg.val, e.1, j) ∈ fmRouteWords then fadd s e.2 else s) f0
  let arg (j : Fin 4) (s : F64) : F64 :=
    fadd (fmul fTwoPi (frac (fadd o.opPhase[j] q.phaseOfs))) (fmul q.fmIndex s)
  let o4 := fmul q.fmLevel[3] (theParams.sin (fadd (arg 3 f0) (fmul q.fmFb o.fmFb)))
  let o3 := fmul q.fmLevel[2] (theParams.sin (arg 2 (sum 3 [(4, o4)])))
  let o2 := fmul q.fmLevel[1] (theParams.sin (arg 1 (sum 2 [(3, o3), (4, o4)])))
  let o1 := fmul q.fmLevel[0] (theParams.sin (arg 0 (sum 1 [(2, o2), (3, o3), (4, o4)])))
  let heard := [(1, o1), (2, o2), (3, o3), (4, o4)].filter fun e => (q.ctrl.fmAlg.val, e.1) ∈ fmCarrierWords
  let phase (j : Fin 4) : F64 := frac (fadd o.opPhase[j] (fmul q.fmRatio[j] dts))
  (fdiv (heard.foldl (fun y e => fadd y e.2) f0) (ofInt heard.length),
    { o with fmFb := o4, opPhase := #v[phase 0, phase 1, phase 2, phase 3] })

/-- `Eval(c, p, dts)` written out from 41_oscillators.md R177 to R198: the sample at phase `p`, and the channel with the
noise generator or the FM operators advanced. `m` is the oversampling factor. -/
def ruleEval (q : OscP) (m : Nat) (p dts : F64) (o : OscState) : F64 × OscState :=
  let wave (x : F64) : F64 := theParams.sin (fmul fTwoPi x)
  let saw := fsub (fmul f2 p) f1
  let square := if flt p fHalf = true then f1 else fNeg1
  let pulse := if flt p q.pw = true then f1 else fNeg1
  let limited (x : F64) : F64 := fclamp x fNeg1 f1
  let series := ruleSeries q (fmul dts (ofInt m)) p
  let odd (n : Nat) : Bool := decide (n % 2 = 1)
  let knee := fmul fHalf (fsub f1 q.pdAmt)
  match q.ctrl.wave, q.ctrl.bl with
  | .sine, _ => (wave p, o)
  | .triangle, .additive =>
    (fmul
      (series odd fun n =>
        if n % 4 = 3 then fneg (fdiv f1 (fmul (ofInt n) (ofInt n))) else fdiv f1 (fmul (ofInt n) (ofInt n)))
      0x3FE9F02F6222C720#64, o)
  | .triangle, _ =>
    (if flt p 0x3FD0000000000000#64 = true then fmul f4 p
      else if flt p 0x3FE8000000000000#64 = true then fsub f2 (fmul f4 p)
      else fsub (fmul f4 p) f4, o)
  | .saw, .naive => (saw, o)
  | .saw, .polyBlep => (limited (fsub saw (ruleBlep p dts)), o)
  | .saw, .additive => (fmul (series (fun _ => true) fun n => fdiv f1 (ofInt n)) 0x3FE45F306DC9C883#64, o)
  | .square, .naive => (square, o)
  | .square, .polyBlep =>
    (limited (fsub (fadd square (ruleBlep p dts)) (ruleBlep (frac (fadd p fHalf)) dts)), o)
  | .square, .additive => (fmul (series odd fun n => fdiv f1 (ofInt n)) 0x3FF45F306DC9C883#64, o)
  | .pulse, .naive => (pulse, o)
  | .pulse, _ =>
    (limited (fsub (fadd pulse (ruleBlep p dts)) (ruleBlep (frac (fadd p (fsub f1 q.pw))) dts)), o)
  | .noise, _ => (ruleNoise (ruleDraw o.noise), { o with noise := ruleDraw o.noise })
  | .phaseDist, _ =>
    (wave (if flt p knee = true then fdiv (fmul fHalf p) knee
      else fadd fHalf (fdiv (fmul fHalf (fsub p knee)) (fsub f1 knee))), o)
  | .fm, _ => ruleFm q dts o

/-- `CUTOFF_EFF` written out from 42_filters.md R237. -/
def ruleCutoff (s : State) : F64 :=
  let q := s.activeP.filt
  fclamp
    (fadd (fadd (fadd q.cutoff (fmul (fsub q.noteFreq (ofInt 440)) q.keytrack))
      (fmul (fmul q.envAmt s.activeM.envIn) (ofInt 10000))) (fmul (fmul q.lfoAmt s.activeM.lfoIn) (ofInt 5000)))
    (ofInt 20) (ofInt 20000)

/-- A frequency limited to `0.49` of a rate (42_filters.md R238). -/
def ruleWarp (f rate : F64) : F64 := fmin f (fmul 0x3FDF5C28F5C28F5C#64 rate)

/-- `FSr = FS * Float(M)`, `M = 2 ^ FOVS` (42_filters.md R232). -/
def ruleRate (s : State) : F64 := fmul theParams.fs (ofInt (2 ^ s.activeP.filt.ctrl.fovs.val))

/-- `g = Tan(PI * f / rate)` (42_filters.md R239, R244, 43_delay_lines.md R303). -/
def ruleG (f rate : F64) : F64 := theParams.tan (fdiv (fmul fPi f) rate)

/-- `QSK() = 1.0 / (2.0 - 2.0 * r)` (42_filters.md R240). -/
def ruleQsk (r : F64) : F64 := fdiv f1 (fsub f2 (fmul f2 r))

/-- `QM() = min(25.0, 1.0 / (2.0 - 2.0 * r))` (42_filters.md R240). -/
def ruleQm (r : F64) : F64 := fmin 0x4039000000000000#64 (ruleQsk r)

/-- Whether the filter is in its 1-pole form (42_filters.md R233, R234). -/
def OnePoleForm (q : FiltP) : Prop :=
  q.ctrl.topo = .multi ∧ q.ctrl.onePole = true ∧ (q.ctrl.resp = .lp ∨ q.ctrl.resp = .hp)

/-- `Coef(resp, fcw, FSr, Q)`, that is `[FB0, FB1, FB2, FA1, FA2]`, written out from 42_filters.md R241. -/
def ruleCoefs (resp : Response) (fcw rate q : F64) : Vector F64 5 :=
  let w0 := fdiv (fmul fTwoPi fcw) rate
  let cw := theParams.cos w0
  let alpha := fdiv (theParams.sin w0) (fmul f2 q)
  let scaled (b0 b1 b2 : F64) : Vector F64 5 :=
    #v[fdiv b0 (fadd f1 alpha), fdiv b1 (fadd f1 alpha), fdiv b2 (fadd f1 alpha),
      fdiv (fmul fNeg2 cw) (fadd f1 alpha), fdiv (fsub f1 alpha) (fadd f1 alpha)]
  match resp with
  | .lp => scaled (fdiv (fsub f1 cw) f2) (fsub f1 cw) (fdiv (fsub f1 cw) f2)
  | .hp => scaled (fdiv (fadd f1 cw) f2) (fneg (fadd f1 cw)) (fdiv (fadd f1 cw) f2)
  | .bp => scaled alpha f0 (fneg alpha)
  | .notch => scaled f1 (fmul fNeg2 cw) f1

/-- `Biquad(H, k, u)` written out from 42_filters.md R242: the output and the new history. -/
def ruleBiquad (h : History) (k : Vector F64 5) (u : F64) : F64 × History :=
  let y := fsub (fsub (fadd (fadd (fmul k[0] u) (fmul k[1] h.x1)) (fmul k[2] h.x2)) (fmul k[3] h.y1)) (fmul k[4] h.y2)
  (y, ⟨u, h.x1, y, h.y1⟩)

/-- The length `L = clamp(ToInt(COMB_TIME * FSr), 1, MAXCOMB)` (42_filters.md R248). -/
def ruleCombLen (s : State) : Int :=
  max 1 (min (toInt (fmul s.activeP.filt.combTime (ruleRate s))) (theParams.maxComb : Int))

/-- `Topo(u, FSr)` written out from 42_filters.md R233, R239 to R244, R247, R248, R250 to R252: the sub-sample and the
filter's state after it. -/
def ruleTopo (s : State) (u : F64) (f : FiltState) : F64 × FiltState :=
  let q := s.activeP.filt
  let rate := ruleRate s
  let fcw := ruleWarp (ruleCutoff s) rate
  let g := fdiv (ruleG fcw rate) (fadd f1 (ruleG fcw rate))
  let shared (resp : Response) (qf : F64) : F64 × FiltState :=
    let r := ruleBiquad f.bq (ruleCoefs resp fcw rate qf) u
    (r.1, { f with bq := r.2 })
  match q.ctrl.topo with
  | .multi =>
    if q.ctrl.onePole = true ∧ (q.ctrl.resp = .lp ∨ q.ctrl.resp = .hp) then
      let v := fmul g (fsub u f.s1)
      let lp := fadd v f.s1
      (if q.ctrl.resp = .hp then fsub u lp else lp, { f with s1 := fadd lp v })
    else shared q.ctrl.resp (ruleQm q.res)
  | .ladder =>
    let s0 := fsub (theParams.tanh u) (fmul (fmul q.res f4) f.ladderY4)
    let v1 := fmul g (fsub s0 f.z[0])
    let y1 := fadd v1 f.z[0]
    let v2 := fmul g (fsub y1 f.z[1])
    let y2 := fadd v2 f.z[1]
    let v3 := fmul g (fsub y2 f.z[2])
    let y3 := fadd v3 f.z[2]
    let v4 := fmul g (fsub y3 f.z[3])
    let y4 := fadd v4 f.z[3]
    let y := if flt 0x3FEE666666666666#64 q.res = true then fclamp y4 fNeg1 f1 else y4
    (y, { f with z := #v[fadd y1 v1, fadd y2 v2, fadd y3 v3, fadd y4 v4], ladderY4 := y })
  | .sallenKey => shared .lp (ruleQsk q.res)
  | .svf => shared q.ctrl.resp (ruleQm q.res)
  | .comb =>
    let d := memRead f.cline (((f.cw : Int) - ruleCombLen s) % (theParams.maxComb : Int)).toNat
    let cs := fadd (fmul f.cs (fsub f1 q.combDamp)) (fmul d q.combDamp)
    let y := fadd u (fmul cs q.combFb)
    (y, { f with cs := cs, cline := memWrite f.cline f.cw y, cw := (f.cw + 1) % theParams.maxComb })
  | .formant =>
    let r (k : Fin 3) : F64 × History :=
      ruleBiquad f.fq[k]
        (ruleCoefs .bp (ruleWarp q.formant[k].freq rate) rate (fdiv q.formant[k].freq q.formant[k].bw)) u
    let sum := fadd (fadd (fadd f0 (fmul q.formant[0].gain (r 0).1)) (fmul q.formant[1].gain (r 1).1))
      (fmul q.formant[2].gain (r 2).1)
    (fclamp sum fNeg1 f1, { f with fq := #v[(r 0).2, (r 1).2, (r 2).2] })

/-- `Lengths(mode)` before the limit, written out from 43_delay_lines.md R292, R294. -/
def ruleLengths (s : State) : F64 × F64 :=
  let q := s.activeP.dly
  let beatCount : F64 :=
    match q.ctrl.div with
    | .whole => 0x4010000000000000#64
    | .half => 0x4000000000000000#64
    | .quarter => 0x3FF0000000000000#64
    | .eighth => 0x3FE0000000000000#64
    | .sixteenth => 0x3FD0000000000000#64
    | .thirtySecond => 0x3FC0000000000000#64
    | .dottedQuarter => 0x3FF8000000000000#64
    | .dottedEighth => 0x3FE8000000000000#64
    | .tripletQuarter => 0x3FE5555555555555#64
    | .tripletEighth => 0x3FD5555555555555#64
  let base := if q.ctrl.sync = true then fmul (fdiv (ofInt 60) s.activeP.bpm) beatCount else q.dtime
  let swing (phase : F64) : F64 := theParams.sin (fmul fTwoPi phase)
  let chorus (phase : F64) : F64 :=
    fmul (fadd q.chDelay (fmul q.chDepth (fadd fHalf (fmul fHalf (swing phase))))) theParams.fs
  match q.ctrl.mode with
  | .delay => (fmul base theParams.fs, fmul base theParams.fs)
  | .chorus => (chorus s.dly.lfoL, chorus s.dly.lfoR)
  | .bbdChorus => (chorus s.dly.lfoL, chorus s.dly.lfoR)
  | .bbdDelay =>
    let d := fmul (fdiv (ofInt q.bbdStages.toInt) q.bbdClock) theParams.fs
    (d, d)
  | .tape =>
    let t := if s.activeP.ctrl.analogEn = true then
        fadd (fadd base (fmul q.wowDepth (swing s.dly.phWow))) (fmul q.flutDepth (swing s.dly.phFlut))
      else base
    (fmul t theParams.fs, fmul t theParams.fs)

/-- `Tap(buf, D)` of the line `sp`, written out from 43_delay_lines.md R295. -/
def ruleTap (s : State) (sp : Space) (d : F64) : F64 :=
  let n : Int := theParams.maxDly
  let a := s.element sp (((s.dly.dw : Int) - toInt d) % n).toNat
  let b := s.element sp (((s.dly.dw : Int) - toInt d - 1) % n).toNat
  fadd a (fmul (fsub d (ofInt (toInt d))) (fsub b a))

/-- A length limited to `[1, MAXDLY - 2]` (43_delay_lines.md R294). -/
def ruleLimit (d : F64) : F64 := fclamp d f1 (ofInt ((theParams.maxDly : Int) - 2))

/-- The modes whose feedback can cross and whose wet gain the width scales (43_delay_lines.md R300, R301). -/
abbrev DelayMode.isDelay (m : DelayMode) : Prop := m = .delay ∨ m = .bbdDelay ∨ m = .tape

end Sys2Proof.Machine
end

