-- ==== Sys2Proof/Certificates/Slice0/Obligations.lean ====
section
/-! DEFINITION. The statements for the provers. Each docstring names the rules it formalises. -/

open Sys2Proof Sys2Proof.Machine

/-- Decoding the encoding of a command gives the command back, and a transaction that decodes to a command is that
command's encoding: no two words mean one command, but for the data beat of a command that carries none
(30_encoding.md R100, R101, R103, R105, R107). -/
def Obligations.DecodeEncode : Prop :=
  (∀ i : Instr, i.wellFormed = true → decode (encode i) = .command i) ∧
  (∀ (x : Transaction) (i : Instr), decode x = .command i →
    i.wellFormed = true ∧ (encode i).word = x.word ∧ (opField x.word = 0x10#8 → encode i = x))

/-- 30_encoding.md R114, and one word of every other command written out from R100 and R101. -/
def Obligations.WorkedEncodings : Prop :=
  (∀ v : Word,
    decode ⟨0x01000000#32, v⟩ = .command .tick ∧
    decode ⟨0x05400000#32, v⟩ = .command (.resetUnit 4) ∧
    decode ⟨0x08200000#32, v⟩ = .command (.oscStep 2) ∧
    decode ⟨0x0E400000#32, v⟩ = .command (.vowelLoad 4) ∧
    decode ⟨0x11000010#32, v⟩ = .command (.csrRead 0x010) ∧ hasResponse 0x11000010#32 = true ∧
    decode ⟨0x10000101#32, 0x407B800000000000#64⟩ = .command (.csrWrite 0x101 0x407B800000000000) ∧
    decode ⟨0x00000000#32, v⟩ = .command .nop ∧
    decode ⟨0x02000000#32, v⟩ = .command .commit ∧
    decode ⟨0x03000000#32, v⟩ = .command .modtick ∧
    decode ⟨0x04000000#32, v⟩ = .command .softReset ∧
    decode ⟨0x06000000#32, v⟩ = .command .clrErr ∧
    decode ⟨0x09300000#32, v⟩ = .command (.oscPhaseReset 3) ∧
    decode ⟨0x0A000000#32, v⟩ = .command .filtProc ∧
    decode ⟨0x0B000000#32, v⟩ = .command .dlyProc ∧
    decode ⟨0x0C000000#32, v⟩ = .command .efxProc ∧
    decode ⟨0x0D000000#32, v⟩ = .command .irGen)

/-- The words that are ILLEGAL are exactly those of the rule's list, and performing one records `ILLEGAL_CMD`, answers a
`CSR_READ` word with a zero beat, and changes nothing else (30_encoding.md R103, R104, R107, R108, 60_exceptions.md R372). The
port is the model's (log 1). -/
def Obligations.IllegalWords : Prop :=
  ∀ (s : State) (x : Transaction) (rest : List Transaction), s.port.pending = x :: rest →
    let op := (x.word.extractLsb' 24 8).toNat
    let sel := (x.word.extractLsb' 20 4).toNat
    let rsv := (x.word.extractLsb' 12 8).toNat
    let addr := (x.word.extractLsb' 0 12).toNat
    let selLimit := if op = 0x05 then 6 else if op = 0x08 ∨ op = 0x09 then 3 else if op = 0x0E then 4 else 0
    let illegal := op = 0x07 ∨ op = 0x0F ∨ 0x12 ≤ op ∨ rsv ≠ 0 ∨ selLimit < sel ∨ (addr ≠ 0 ∧ op ≠ 0x10 ∧ op ≠ 0x11)
    ((∃ why, decode x = .illegal why) ↔ illegal) ∧
    (illegal → step s =
      .next
        { s with
          status := if s.status.getLsbD 0 then s.status else 0x101
          port := ⟨rest, if op = 0x11 then s.port.responses ++ [0] else s.port.responses⟩ })

/-- A step takes the first pending transaction and runs the command it decodes to (40_host_commands.md R130). The port is
the model's (log 1). -/
def Obligations.StepRunsDecoded : Prop :=
  ∀ (s : State) (x : Transaction) (rest : List Transaction) (i : Instr),
    s.port.pending = x :: rest → decode x = .command i →
      step s = exec i { s with port := { s.port with pending := rest } }

/-- 40_host_commands.md R131. -/
def Obligations.NopHasNoEffect : Prop :=
  (∀ v : Word, decode ⟨0x00000000#32, v⟩ = .command .nop) ∧
  (∀ s : State, exec .nop s = .next s) ∧
  (∀ x : Transaction, x.word.extractLsb' 24 8 = 0#8 → x.word ≠ 0 → ∃ why, decode x = .illegal why)

/-- `COMMIT` publishes every P register and no M register, then generates the impulse response where the published decay
differs from the last generation's; `MODTICK` publishes every M register and changes nothing else (40_host_commands.md
R138, R140, 20_memory.md R91). That the two decays are compared as numbers, so that a NaN differs and the two zeros do not,
is the model's reading of `!=` (log 13). -/
def Obligations.Publication : Prop :=
  ∀ s : State,
    (feq s.shadowP.efx.revDecay s.efx.irDecayGen = true → exec .commit s = .next { s with activeP := s.shadowP }) ∧
    (feq s.shadowP.efx.revDecay s.efx.irDecayGen = false →
      ∃ t, exec .irGen { s with activeP := s.shadowP } = .next t ∧ exec .commit s = .next t) ∧
    exec .modtick s = .next { s with activeM := s.shadowM }

/-- `SOFT_RESET` gives the reset state and discards everything else (40_host_commands.md R141, 70_reset_and_hazards.md
R403). That the host port is kept is the model's choice (log 1). -/
def Obligations.SoftReset : Prop := ∀ s : State, exec .softReset s = .next { State.reset with port := s.port }

/-- What the host reads of every register just after reset (70_reset_and_hazards.md R401); the registers that depend on
the open parameters are in `ResetOpenParameters`. -/
def Obligations.ResetRegisters : Prop :=
  (∀ e ∈ resetWords, exec (.csrRead e.1) State.reset = .next { State.reset with port := ⟨[], [e.2]⟩ }) ∧
  (∀ c : Chan, ∀ e ∈ resetOscWords,
    exec (.csrRead (0x100#12 + BitVec.ofNat 12 (0x40 * c.val) + e.1)) State.reset =
      .next { State.reset with port := ⟨[], [e.2]⟩ }) ∧
  (∀ c : Chan, ∀ o ∈ [0x16#12, 0x1B#12],
    exec (.csrRead (0x100#12 + BitVec.ofNat 12 (0x40 * c.val) + o)) State.reset =
      .next { State.reset with port := ⟨[], [0x9E3779B9#64 + BitVec.ofNat 64 c.val]⟩ })

/-- The rest of the reset state: the active copies, the FIR lengths, the formants, the hidden state and the memories, the
coefficients being those that a generation gives (70_reset_and_hazards.md R400, R401, 10_state.md R46, R49, R54, R55,
44_effect_filters.md R346, 42_filters.md R255). That a FIR length beyond an I64 register is its greatest value is the
model's reading (log 14). -/
def Obligations.ResetOpenParameters : Prop :=
  let r := State.reset
  let len := BitVec.ofInt 64 (min (iclamp (toInt (fmul f1 theParams.fs)) 1 theParams.maxFir) (2 ^ 63 - 1))
  r.activeP = r.shadowP ∧ r.activeM = r.shadowM ∧
  r.shadowP.efx.firLenL = len ∧ r.shadowP.efx.firLenR = len ∧
  (∀ k : Fin 3, r.shadowP.filt.formant[k] = theParams.vowel .a k) ∧
  r.filt.xprev = f0 ∧ r.filt.s1 = f0 ∧ r.filt.bq = ⟨f0, f0, f0, f0⟩ ∧ (∀ i : Fin 4, r.filt.z[i] = f0) ∧
  r.filt.cs = f0 ∧ r.filt.cw = 0 ∧ (∀ k : Fin 3, r.filt.fq[k] = ⟨f0, f0, f0, f0⟩) ∧
  r.efx.eqL = ⟨f0, f0, f0, f0⟩ ∧ r.efx.eqR = ⟨f0, f0, f0, f0⟩ ∧ r.efx.phL = r.efx.phR ∧
  (∀ st : Fin 12, r.efx.phL.ax[st] = f0 ∧ r.efx.phL.ay[st] = f0) ∧ r.efx.phL.fb = f0 ∧
  (∀ i, r.element .comb i = f0 ∧ r.element .dbufL i = f0 ∧ r.element .dbufR i = f0 ∧
    r.element .histL i = f0 ∧ r.element .histR i = f0) ∧
  exec .irGen r = .next r

/-- `RESET_UNIT` of each unit: what it clears, and that nothing else changes (40_host_commands.md R142, R143, R144). -/
def Obligations.ResetUnit : Prop :=
  ∀ s : State,
    (∀ c : Chan, exec (.resetUnit (selOf c)) s =
      .next
        { s with
          osc := s.osc.set c
            { phase := f0, out := f0, wrap := false, noise := s.activeP.osc[c].noiseSeed, opPhase := #v[f0, f0, f0, f0],
              fmFb := f0 } }) ∧
    (∃ t, exec (.resetUnit 4) s = .next t ∧ t = { s with filt := t.filt } ∧
      t.filt.xprev = f0 ∧ t.filt.s1 = f0 ∧ (∀ i : Fin 4, t.filt.z[i] = f0) ∧ t.filt.ladderY4 = f0 ∧ t.filt.cs = f0 ∧
      t.filt.bq = ⟨f0, f0, f0, f0⟩ ∧ (∀ k : Fin 3, t.filt.fq[k] = ⟨f0, f0, f0, f0⟩) ∧ (∀ i, t.element .comb i = f0) ∧
      t.filt.cw = 0 ∧ t.filt.out = f0 ∧ ∀ sp, sp ≠ .comb → ∀ i, t.element sp i = s.element sp i) ∧
    (∃ t, exec (.resetUnit 5) s = .next t ∧ t = { s with dly := t.dly } ∧
      (∀ i, t.element .dbufL i = f0 ∧ t.element .dbufR i = f0) ∧ t.dly.dw = 0 ∧ t.dly.lfoL = f0 ∧ t.dly.lfoR = f0 ∧
      t.dly.phWow = f0 ∧ t.dly.phFlut = f0 ∧ t.dly.blpL = f0 ∧ t.dly.blpR = f0 ∧ t.dly.lenL = f1 ∧ t.dly.lenR = f1 ∧
      t.dly.noise = s.activeP.dly.noiseSeed ∧ t.dly.outL = f0 ∧ t.dly.outR = f0 ∧
      ∀ sp, sp ≠ .dbufL → sp ≠ .dbufR → ∀ i, t.element sp i = s.element sp i) ∧
    (∃ t, exec (.resetUnit 6) s = .next t ∧ t = { s with efx := t.efx } ∧
      t.efx.eqL = ⟨f0, f0, f0, f0⟩ ∧ t.efx.eqR = ⟨f0, f0, f0, f0⟩ ∧
      (∀ st : Fin 12, t.efx.phL.ax[st] = f0 ∧ t.efx.phL.ay[st] = f0 ∧ t.efx.phR.ax[st] = f0 ∧ t.efx.phR.ay[st] = f0) ∧
      t.efx.phL.fb = f0 ∧ t.efx.phR.fb = f0 ∧ t.efx.phLfo = f0 ∧ t.efx.phCoef = f0 ∧
      (∀ i, t.element .histL i = f0 ∧ t.element .histR i = f0) ∧ t.efx.hw = 0 ∧ t.efx.outL = f0 ∧ t.efx.outR = f0 ∧
      t.efx.irDecayGen = s.efx.irDecayGen ∧ ∀ sp, sp ≠ .histL → sp ≠ .histR → ∀ i, t.element sp i = s.element sp i)

/-- 60_exceptions.md R377, 40_host_commands.md R145. -/
def Obligations.ClrErr : Prop :=
  ∀ s : State, ∃ t, exec .clrErr s = .next t ∧ statusErr t.status = false ∧ statusCode t.status = 0 ∧
    t = { s with status := 0 }

/-- `STATUS` changes only at an error, at `CLR_ERR` and at `SOFT_RESET`; an error is recorded only where none was, only the
register commands raise one, and the transaction that raises it has no other effect than the zero beat of a read
(10_state.md R35, 60_exceptions.md R371, R372, 40_host_commands.md R130). -/
def Obligations.StatusChangesOnly : Prop :=
  ∀ (i : Instr) (s t : State), i.wellFormed = true → exec i s = .next t →
    t.status = s.status ∨
    ((i = .clrErr ∨ i = .softReset) ∧ t.status = 0) ∨
    (statusErr s.status = false ∧
      ((∃ a v, i = .csrWrite a v ∧ t.status ∈ [0x201#64, 0x301#64, 0x401#64, 0x501#64] ∧
          t = { s with status := t.status }) ∨
        (∃ a, i = .csrRead a ∧ t.status ∈ [0x201#64, 0x501#64] ∧
          t = { s with status := t.status, port := { s.port with responses := s.port.responses ++ [0] } })))

/-- The error examples and the priority examples of the spec, each on a block just reset, but for the row that needs a
value of `MAXFIR` (60_exceptions.md R373, R387). -/
def Obligations.ErrorExamples : Prop :=
  let after (x : Transaction) (status : Word) (responses : List Word) : Prop :=
    step { State.reset with port := ⟨[x], []⟩ } = .next { State.reset with status := status, port := ⟨[], responses⟩ }
  after ⟨0x07000000#32, 0⟩ 0x101 [] ∧
  after ⟨0x11000500#32, 0⟩ 0x201 [0] ∧
  after ⟨0x10000000#32, 5⟩ 0x301 [] ∧
  after ⟨0x10000101#32, 0x7FF8000000000000⟩ 0x401 [] ∧
  after ⟨0x10000116#32, 0⟩ 0x401 [] ∧
  after ⟨0x10000100#32, 0x10⟩ 0x401 [] ∧
  after ⟨0x10001FFF#32, 0⟩ 0x101 [] ∧
  after ⟨0x10000FFF#32, 0⟩ 0x201 [] ∧
  after ⟨0x10000000#32, 0x7FF8000000000000⟩ 0x301 [] ∧
  exec (.csrWrite 0x202 0x3FF8000000000000) State.reset =
    .next
      { State.reset with
        shadowP := { State.reset.shadowP with filt := { State.reset.shadowP.filt with res := f1 } } }

/-- An index names at most one register, no register has two indices, and the reserved indices are those of the tables
(10_state.md R31, R32, R39, R44, R50, R56). -/
def Obligations.RegisterMap : Prop :=
  (∀ a : BitVec 12, regAt a = none ↔ IsReserved a.toNat) ∧
  (∀ (a b : BitVec 12) (r : Reg), regAt a = some r → regAt b = some r → a = b)

/-- The type and range of every P and M register by index, as the tables have them, and which write of each type is refused
and which is clamped (40_host_commands.md R136, 10_state.md R32, R34, R39, R44, R50, R56). -/
def Obligations.WriteRefusedOrClamped : Prop :=
  (∀ e ∈ rangeWords theParams.maxFir ++
      (List.finRange 4).flatMap fun c => oscRangeWords.map fun e => (oscIndex c e.1, e.2),
    (∃ r : PReg, regAt e.1 = some (.p r) ∧ r.kind theParams = e.2) ∨
      (∃ r : MReg, e.1 ∈ [0x00A#12, 0x114#12, 0x154#12, 0x194#12, 0x1D4#12, 0x208#12, 0x209#12] ∧
        regAt e.1 = some (.m r) ∧ r.kind = e.2)) ∧
  (∀ a : BitVec 12, ((∃ r : PReg, regAt a = some (.p r)) ∨ ∃ r : MReg, regAt a = some (.m r)) →
    ∃ k, (a, k) ∈ rangeWords theParams.maxFir ++
      (List.finRange 4).flatMap fun c => oscRangeWords.map fun e => (oscIndex c e.1, e.2)) ∧
  ∀ (k : RegKind) (v : Word), (∃ r : PReg, k = r.kind theParams) ∨ (∃ r : MReg, k = r.kind) →
    (writeValue k v = none ↔
      match k with
      | .f64 _ _ => isNaN v = true
      | .i64 _ _ => False
      | .seed => v.extractLsb' 0 32 = 0#32
      | .ctrl => False
      | .oscCtrl => 8 ≤ fieldOf v 1 4 ∨ fieldOf v 5 2 = 3
      | .filtCtrl => 6 ≤ fieldOf v 0 3
      | .dlyCtrl => 5 ≤ fieldOf v 0 3 ∨ 10 ≤ fieldOf v 5 4
      | .efxCtrl => fieldOf v 0 2 = 3) ∧
    (∀ x, writeValue k v = some x →
      k.Admits x ∧
      match k with
      | .f64 lo hi => (fle lo v = true → fle v hi = true → x = v) ∧ (flt v lo = true → x = lo) ∧ (flt hi v = true → x = hi)
      | .i64 lo hi => x.toInt = max lo (min v.toInt hi)
      | .seed => x = (v.extractLsb' 0 32).zeroExtend 64
      | .ctrl => x = v &&& 0x1F
      | .oscCtrl => x = v &&& 0x3FFF
      | .filtCtrl => x = v &&& 0xFF
      | .dlyCtrl => x = v &&& 0x1FF
      | .efxCtrl => x = v &&& 0xF)

/-- An accepted `CSR_WRITE` of a P or M register: the shadow copy of that register reads as the written value after
`WriteValue`, every other register's shadow copy is as before, and nothing else changes, the active copies among them
(40_host_commands.md R132, R135, 10_state.md R30, 70_reset_and_hazards.md R413). -/
def Obligations.WriteShadowRegister : Prop :=
  ∀ (s : State) (a : BitVec 12) (v x : Word),
    (∀ r : PReg, regAt a = some (.p r) → writeValue (r.kind theParams) v = some x →
      ∃ t, exec (.csrWrite a v) s = .next t ∧ t.shadowP.read r = x ∧
        (∀ q : PReg, q ≠ r → t.shadowP.read q = s.shadowP.read q) ∧ t = { s with shadowP := t.shadowP }) ∧
    (∀ r : MReg, regAt a = some (.m r) → writeValue r.kind v = some x →
      ∃ t, exec (.csrWrite a v) s = .next t ∧ t.shadowM.read r = x ∧
        (∀ q : MReg, q ≠ r → t.shadowM.read q = s.shadowM.read q) ∧ t = { s with shadowM := t.shadowM })

/-- A `CSR_WRITE` of a class D register other than the window: the pattern is stored unchanged, `FIR_ADDR` without its
reserved bits (40_host_commands.md R132, 10_state.md R38, R53). -/
def Obligations.WriteDirectRegister : Prop :=
  ∀ (s : State) (v : Word),
    exec (.csrWrite 0x018 v) s = .next { s with inL := v } ∧
    exec (.csrWrite 0x019 v) s = .next { s with inR := v } ∧
    exec (.csrWrite 0x228 v) s = .next { s with filtIn := v } ∧
    exec (.csrWrite 0x40D v) s = .next { s with firAddr := v &&& 0x1FFFFFFFF }

/-- A `CSR_WRITE` that is turned away changes `STATUS` alone, by the error's cause (40_host_commands.md R132, R135,
60_exceptions.md R370, R372). -/
def Obligations.WriteTurnedAway : Prop :=
  ∀ (s : State) (a : BitVec 12) (v : Word),
    let recorded (code : Word) : State := { s with status := if s.status.getLsbD 0 then s.status else code }
    (regAt a = none → exec (.csrWrite a v) s = .next (recorded 0x201)) ∧
    (∀ r, regAt a = some (.r r) → exec (.csrWrite a v) s = .next (recorded 0x301)) ∧
    (∀ r : PReg, regAt a = some (.p r) → writeValue (r.kind theParams) v = none →
      exec (.csrWrite a v) s = .next (recorded 0x401)) ∧
    (∀ r : MReg, regAt a = some (.m r) → writeValue r.kind v = none → exec (.csrWrite a v) s = .next (recorded 0x401))

/-- 20_memory.md R83: the coefficient window's write and read, inside the memory and outside it. -/
def Obligations.FirWindow : Prop :=
  ∀ (s : State) (v : Word), s.MemoriesOk theParams →
    let idx := s.firAddr.toNat % 2 ^ 32
    let sp : Space := if s.firAddr.getLsbD 32 then .hR else .hL
    let advanced : Word := BitVec.ofNat 64 (s.firAddr.toNat / 2 ^ 32 * 2 ^ 32 + (idx + 1) % 2 ^ 32)
    let status : Word := if s.status.getLsbD 0 then s.status else 0x501
    (idx < theParams.maxFir →
      (∃ t, exec (.csrWrite 0x40E v) s = .next t ∧ t.firAddr = advanced ∧
        (∀ sp' j, t.element sp' j = if sp' = sp ∧ j = idx then v else s.element sp' j) ∧
        t = { s with firAddr := t.firAddr, efx := { s.efx with hL := t.efx.hL, hR := t.efx.hR } }) ∧
      exec (.csrRead 0x40E) s =
        .next
          { s with
            firAddr := advanced
            port := { s.port with responses := s.port.responses ++ [s.element sp idx] } }) ∧
    (theParams.maxFir ≤ idx →
      exec (.csrWrite 0x40E v) s = .next { s with status := status } ∧
      exec (.csrRead 0x40E) s =
        .next { s with status := status, port := { s.port with responses := s.port.responses ++ [0] } })

/-- What a `CSR_READ` answers at every index of the register map: the shadow copy of a P or M register, the one copy of a
class D register or of an R state register; nothing else changes. A reserved index answers 0 and records `BAD_CSR`
(40_host_commands.md R133, R134, 10_state.md R32, R33, R39, R40, R44, R45, R48, R50, R52, R56). `DT`, `CUTOFF_EFF`,
`FILT_G`, `COMB_LEN`, `FILT_STATUS`, the coefficients and `FIR_DATA` have statements of their own. Of a count past 64 bits
nothing is said (log 14). -/
def Obligations.ReadRegister : Prop :=
  ∀ (s : State),
    let answer (a : BitVec 12) (v : Word) : Prop :=
      exec (.csrRead a) s = .next { s with port := { s.port with responses := s.port.responses ++ [v] } }
    let count (a : BitVec 12) (n : Nat) : Prop := ∃ v, answer a v ∧ (n < 2 ^ 64 → v.toNat = n)
    let fields (l : List (Nat × Nat)) : Word := BitVec.ofNat 64 (l.map fun e => e.2 * 2 ^ e.1).sum
    let g := s.shadowP
    (∀ a, regAt a = none → exec (.csrRead a) s =
      .next
        { s with
          status := if s.status.getLsbD 0 then s.status else 0x201
          port := { s.port with responses := s.port.responses ++ [0] } }) ∧
    (answer 0x000 0x5355423030330007 ∧ answer 0x001 theParams.fs ∧ count 0x002 theParams.maxDly ∧
      count 0x003 theParams.maxComb ∧ count 0x004 theParams.maxFir ∧ answer 0x005 4 ∧
      answer 0x008 (fields [(0, g.ctrl.filtEn.toNat), (1, g.ctrl.dlyEn.toNat), (2, g.ctrl.efxEn.toNat),
        (3, g.ctrl.chainOrder.toNat), (4, g.ctrl.analogEn.toNat)]) ∧
      answer 0x009 g.bpm ∧ answer 0x00A s.shadowM.amp ∧ answer 0x010 s.status ∧ answer 0x011 s.tickCount ∧
      answer 0x018 s.inL ∧ answer 0x019 s.inR ∧ answer 0x01A s.outL ∧ answer 0x01B s.outR ∧ answer 0x01C s.oscMix) ∧
    (∀ c : Chan,
      let p := g.osc[c]
      let o := s.osc[c]
      answer (oscIndex c 0x00)
        (fields [(0, p.ctrl.en.toNat),
          (1, [Wave.sine, .triangle, .saw, .square, .pulse, .noise, .phaseDist, .fm].idxOf p.ctrl.wave),
          (5, [BandLimit.naive, .polyBlep, .additive].idxOf p.ctrl.bl), (7, p.ctrl.ovs.val), (9, p.ctrl.sync.toNat),
          (10, p.ctrl.ring.toNat), (11, p.ctrl.fmAlg.val)]) ∧
      answer (oscIndex c 0x01) p.freq ∧ answer (oscIndex c 0x02) p.oct ∧ answer (oscIndex c 0x03) p.semi ∧
      answer (oscIndex c 0x04) p.detune ∧ answer (oscIndex c 0x05) p.gain ∧ answer (oscIndex c 0x06) p.pw ∧
      answer (oscIndex c 0x07) p.phaseOfs ∧ answer (oscIndex c 0x08) p.pdAmt ∧ answer (oscIndex c 0x09) p.wtHarm ∧
      answer (oscIndex c 0x0A) p.fmIndex ∧ answer (oscIndex c 0x0B) p.fmFb ∧
      (∀ j : Fin 4, answer (oscIndex c (0x0C#12 + BitVec.ofNat 12 j.val)) p.fmRatio[j] ∧
        answer (oscIndex c (0x10#12 + BitVec.ofNat 12 j.val)) p.fmLevel[j] ∧
        answer (oscIndex c (0x1D#12 + BitVec.ofNat 12 j.val)) o.opPhase[j]) ∧
      answer (oscIndex c 0x14) s.shadowM.modIn[c] ∧ answer (oscIndex c 0x15) p.modDepth ∧
      answer (oscIndex c 0x16) (p.noiseSeed.zeroExtend 64) ∧ answer (oscIndex c 0x18) o.phase ∧
      answer (oscIndex c 0x19) o.out ∧ answer (oscIndex c 0x1A) (if o.wrap = true then 1 else 0) ∧
      answer (oscIndex c 0x1B) (o.noise.zeroExtend 64) ∧ answer (oscIndex c 0x21) o.fmFb) ∧
    (answer 0x200
        (fields [(0, [Topology.multi, .ladder, .sallenKey, .svf, .comb, .formant].idxOf g.filt.ctrl.topo),
          (3, [Response.lp, .hp, .bp, .notch].idxOf g.filt.ctrl.resp), (5, g.filt.ctrl.onePole.toNat),
          (6, g.filt.ctrl.fovs.val)]) ∧
      answer 0x201 g.filt.cutoff ∧ answer 0x202 g.filt.res ∧ answer 0x203 g.filt.drive ∧ answer 0x204 g.filt.keytrack ∧
      answer 0x205 g.filt.noteFreq ∧ answer 0x206 g.filt.envAmt ∧ answer 0x207 g.filt.lfoAmt ∧
      answer 0x208 s.shadowM.envIn ∧ answer 0x209 s.shadowM.lfoIn ∧ answer 0x20A g.filt.combTime ∧
      answer 0x20B g.filt.combFb ∧ answer 0x20C g.filt.combDamp ∧
      (∀ k : Fin 3, answer (0x210#12 + BitVec.ofNat 12 (3 * k.val)) g.filt.formant[k].freq ∧
        answer (0x211#12 + BitVec.ofNat 12 (3 * k.val)) g.filt.formant[k].bw ∧
        answer (0x212#12 + BitVec.ofNat 12 (3 * k.val)) g.filt.formant[k].gain) ∧
      answer 0x227 s.filt.out ∧ answer 0x228 s.filtIn ∧ answer 0x22A s.filt.ladderY4) ∧
    (answer 0x300
        (fields [(0, [DelayMode.delay, .chorus, .bbdDelay, .bbdChorus, .tape].idxOf g.dly.ctrl.mode),
          (3, g.dly.ctrl.pingPong.toNat), (4, g.dly.ctrl.sync.toNat),
          (5, [Division.whole, .half, .quarter, .eighth, .sixteenth, .thirtySecond, .dottedQuarter, .dottedEighth,
            .tripletQuarter, .tripletEighth].idxOf g.dly.ctrl.div)]) ∧
      answer 0x301 g.dly.dtime ∧ answer 0x302 g.dly.dfb ∧ answer 0x303 g.dly.dmix ∧ answer 0x304 g.dly.dwidth ∧
      answer 0x305 g.dly.chRate ∧ answer 0x306 g.dly.chDepth ∧ answer 0x307 g.dly.chDelay ∧
      answer 0x308 g.dly.chRatio ∧ answer 0x309 g.dly.bbdStages ∧ answer 0x30A g.dly.bbdClock ∧
      answer 0x30B g.dly.bbdLpf ∧ answer 0x30C g.dly.bbdNoise ∧ answer 0x30D g.dly.wowRate ∧
      answer 0x30E g.dly.wowDepth ∧ answer 0x30F g.dly.flutRate ∧ answer 0x310 g.dly.flutDepth ∧
      answer 0x311 (g.dly.noiseSeed.zeroExtend 64) ∧ answer 0x318 s.dly.outL ∧ answer 0x319 s.dly.outR ∧
      answer 0x31A s.dly.lenL ∧ answer 0x31B s.dly.lenR ∧ count 0x31C s.dly.dw ∧ answer 0x31D s.dly.lfoL ∧
      answer 0x31E s.dly.lfoR ∧ answer 0x31F s.dly.phWow ∧ answer 0x320 s.dly.phFlut ∧
      answer 0x321 (s.dly.noise.zeroExtend 64) ∧ answer 0x322 s.dly.blpL ∧ answer 0x323 s.dly.blpR) ∧
    (answer 0x400 (fields [(0, [EffectMode.biquad, .phaser, .fir].idxOf g.efx.ctrl.mode),
        (2, [Response.lp, .hp, .bp, .notch].idxOf g.efx.ctrl.resp)]) ∧
      answer 0x401 g.efx.eqFreq ∧ answer 0x402 g.efx.eqQ ∧ answer 0x403 g.efx.emix ∧ answer 0x404 g.efx.phStages ∧
      answer 0x405 g.efx.phRate ∧ answer 0x406 g.efx.phMin ∧ answer 0x407 g.efx.phMax ∧ answer 0x408 g.efx.phFb ∧
      answer 0x409 g.efx.revDecay ∧ answer 0x40A g.efx.revDamp ∧ answer 0x40B g.efx.firLenL ∧
      answer 0x40C g.efx.firLenR ∧ answer 0x40D s.firAddr ∧ answer 0x40F (g.efx.irSeedL.zeroExtend 64) ∧
      answer 0x410 (g.efx.irSeedR.zeroExtend 64) ∧ answer 0x418 s.efx.outL ∧ answer 0x419 s.efx.outR ∧
      answer 0x41A s.efx.phLfo ∧ answer 0x41B s.efx.irDecayGen ∧ answer 0x421 s.efx.phCoef ∧ count 0x422 s.efx.hw) ∧
    (∀ a (r : PReg), regAt a = some (.p r) → answer a (g.read r)) ∧
    (∀ a (r : MReg), regAt a = some (.m r) → answer a (s.shadowM.read r))

/-- Every `CSR_READ` of a register other than `FIR_DATA` has no side effect, and a second read answers the same value
(20_memory.md R88). That a derived register whose value is a NaN reads the same pattern again is the model's choice
(log 5). -/
def Obligations.ReadIdempotent : Prop :=
  ∀ (s : State) (a : BitVec 12), regAt a ≠ none → regAt a ≠ some (.d .firData) →
    ∃ v, exec (.csrRead a) s = .next { s with port := { s.port with responses := s.port.responses ++ [v] } } ∧
      ∀ port : Port, exec (.csrRead a) { s with port := port } =
        .next { s with port := { port with responses := port.responses ++ [v] } }

/-- 42_filters.md R246. -/
def Obligations.SelfOscillationFlag : Prop :=
  ∀ s : State,
    exec (.csrRead 0x22B) s =
      .next
        { s with
          port := { s.port with
            responses := s.port.responses ++
              [if (s.activeP.filt.ctrl.topo = .ladder ∨ s.activeP.filt.ctrl.topo = .svf) ∧
                  flt 0x3FEE666666666666 s.activeP.filt.res = true then 1 else 0] } }

/-- `DT` is the rule's expression of the active registers and lies in `[0, 0.5]` whatever they hold
(41_oscillators.md R174, R140). -/
def Obligations.PhaseIncrement : Prop :=
  ∀ (s : State) (c : Chan),
    let q := s.activeP.osc[c]
    let t := fadd (ofInt q.oct.toInt) (fdiv (fadd (ofInt q.semi.toInt) (fdiv q.detune (ofInt 100))) (ofInt 12))
    let f := fmul (fmul q.freq (theParams.exp2 t)) (theParams.exp2 (fdiv (fmul s.activeM.modIn[c] q.modDepth) (ofInt 12)))
    let dt := fmax (fmin (fdiv f theParams.fs) fHalf) f0
    exec (.csrRead (0x11C#12 + BitVec.ofNat 12 (0x40 * c.val))) s =
      .next { s with port := { s.port with responses := s.port.responses ++ [dt] } } ∧
    inRange f0 fHalf dt = true

/-- `OSC_STEP` of a disabled channel (41_oscillators.md R171, R173). -/
def Obligations.OscStepDisabled : Prop :=
  ∀ (s : State) (c : Chan), s.activeP.osc[c].ctrl.en = false →
    exec (.oscStep (selOf c)) s = .next { s with osc := s.osc.set c { s.osc[c] with out := f0, wrap := false } }

/-- `OSC_STEP` of an enabled channel, for every waveform, band-limiting mode, oversampling factor, sync and ring setting:
`M` sub-steps at `DT / M`, each the sample at the phase before the advance and the phase advanced with one subtraction at
the wrap, the mean of the sub-samples, the wrap flag of any of them; nothing else changes (41_oscillators.md R171, R172,
R175 to R188, R190 to R198, R200 to R202). `ruleEval` and `ruleDt` are the generators and the increment written out from
R174 and R177 to R198. The PolyBLEP saw at `M = 1` is also written out here. -/
def Obligations.OscStepWaveforms : Prop :=
  ∀ (s : State) (c : Chan),
    let q := s.activeP.osc[c]
    let o := s.osc[c]
    let before : Option OscState := if c = 0 then none else s.osc[c.val - 1]?
    q.ctrl.en = true →
      (let m : Nat := 2 ^ q.ctrl.ovs.val
      let dts := fdiv (ruleDt s c) (ofInt m)
      let synced := q.ctrl.sync = true ∧ ∃ b ∈ before, b.wrap = true
      ∃ (u : Nat → OscState) (acc : Nat → F64) (wrapped : Nat → Prop),
        (synced → u 0 = { o with phase := f0, opPhase := #v[f0, f0, f0, f0] }) ∧ (¬synced → u 0 = o) ∧ acc 0 = f0 ∧
        (∀ k, k < m →
          let r := ruleEval q m (frac (fadd (u k).phase q.phaseOfs)) dts (u k)
          let sum := fadd (u k).phase dts
          acc (k + 1) = fadd (acc k) r.1 ∧ (wrapped k ↔ fle f1 sum = true) ∧
          (wrapped k → u (k + 1) = { r.2 with phase := fsub sum f1 }) ∧
          (¬wrapped k → u (k + 1) = { r.2 with phase := sum })) ∧
        ∃ y w, (w = true ↔ ∃ k, k < m ∧ wrapped k) ∧
          (∀ b ∈ before, q.ctrl.ring = true → y = fmul (fdiv (acc m) (ofInt m)) b.out) ∧
          (before = none ∨ q.ctrl.ring = false → y = fdiv (acc m) (ofInt m)) ∧
          exec (.oscStep (selOf c)) s = .next { s with osc := s.osc.set c { u m with out := y, wrap := w } }) ∧
      (q.ctrl.wave = .saw → q.ctrl.bl = .polyBlep → q.ctrl.ovs = 0 → q.ctrl.sync = false → q.ctrl.ring = false →
        let dt := fdiv (ruleDt s c) f1
        let p := frac (fadd o.phase q.phaseOfs)
        let correction :=
          if flt p dt = true then fsub (fsub (fadd (fdiv p dt) (fdiv p dt)) (fmul (fdiv p dt) (fdiv p dt))) f1
          else if flt (fsub f1 dt) p = true then
            fadd (fadd (fadd (fmul (fdiv (fsub p f1) dt) (fdiv (fsub p f1) dt)) (fdiv (fsub p f1) dt))
              (fdiv (fsub p f1) dt)) f1
          else f0
        let y := fclamp (fsub (fsub (fmul f2 p) f1) correction) fNeg1 f1
        let sum := fadd o.phase dt
        exec (.oscStep (selOf c)) s =
          .next
            { s with
              osc := s.osc.set c
                { o with
                  phase := if fle f1 sum = true then fsub sum f1 else sum
                  out := fdiv (fadd f0 y) f1
                  wrap := fle f1 sum } })

/-- Noise: a step of a noise channel without oversampling and ring modulation draws once from the 32-bit generator, which
never reaches 0 from another state, and the sample is exactly `x / 2^31 - 1` (41_oscillators.md R185). -/
def Obligations.NoiseChannel : Prop :=
  (∀ x : U32, x ≠ 0 → xorshift x ≠ 0) ∧
  (∀ x : U32, isFinite (noiseValue x) = true ∧ ratOf (noiseValue x) = (x.toNat : ℚ) / 2 ^ 31 - 1) ∧
  (∀ (s : State) (c : Chan),
    let q := s.activeP.osc[c]
    q.ctrl.en = true → q.ctrl.wave = .noise → q.ctrl.ovs = 0 → q.ctrl.ring = false → q.ctrl.sync = false →
      let a := s.osc[c].noise ^^^ (s.osc[c].noise <<< 13)
      let b := a ^^^ (a >>> 17)
      let x := b ^^^ (b <<< 5)
      ∃ t, exec (.oscStep (selOf c)) s = .next t ∧ t.osc[c].noise = x ∧
        t.osc[c].out = fdiv (fadd f0 (fsub (fdiv (ofInt x.toNat) fTwo31) f1)) f1 ∧
        t = { s with osc := s.osc.set c { s.osc[c] with
          phase := t.osc[c].phase, out := t.osc[c].out, wrap := t.osc[c].wrap, noise := t.osc[c].noise } })

/-- A channel's step depends on nothing but the channel's active registers, its state and `WRAP` and `OUT` of the channel
before it, and changes nothing but the channel's state (41_oscillators.md R170, R171, R203). That a result
which is a NaN is the same pattern in both is the model's choice (log 5). -/
def Obligations.OscStepDependsOn : Prop :=
  ∀ (s u : State) (c : Chan),
    s.activeP.osc[c] = u.activeP.osc[c] → s.activeM.modIn[c] = u.activeM.modIn[c] → s.osc[c] = u.osc[c] →
    (∀ d : Chan, d.val + 1 = c.val → s.osc[d].wrap = u.osc[d].wrap ∧ s.osc[d].out = u.osc[d].out) →
      ∃ o, exec (.oscStep (selOf c)) s = .next { s with osc := s.osc.set c o } ∧
        exec (.oscStep (selOf c)) u = .next { u with osc := u.osc.set c o }

/-- Hard sync: with `SYNC` set and a wrap of the channel before it, the step is that of the channel with its phases at 0;
with no wrap, or on channel 0, `SYNC` has no effect. Ring modulation: with `RING` set the sample is that of the channel
without it, multiplied by the output of the channel before it; on channel 0 `RING` has no effect (41_oscillators.md R201,
R202). That a NaN result has the same pattern in the two steps compared is the model's choice (log 5). -/
def Obligations.SyncAndRing : Prop :=
  ∀ (s : State) (c : Chan),
    (∀ d : Chan, d.val + 1 = c.val → s.activeP.osc[c].ctrl.en = true → s.activeP.osc[c].ctrl.sync = true →
      s.osc[d].wrap = true →
        exec (.oscStep (selOf c)) s =
          exec (.oscStep (selOf c))
            { s with osc := s.osc.set c { s.osc[c] with phase := f0, opPhase := #v[f0, f0, f0, f0] } }) ∧
    ((∀ d : Chan, d.val + 1 = c.val → s.osc[d].wrap = false) →
      ∃ o, exec (.oscStep (selOf c)) s = .next { s with osc := o } ∧
        exec (.oscStep (selOf c)) (s.withOscCtrl c fun k => { k with sync := false }) =
          .next { s.withOscCtrl c (fun k => { k with sync := false }) with osc := o }) ∧
    (s.activeP.osc[c].ctrl.en = true → s.activeP.osc[c].ctrl.ring = true →
      ∃ t u, exec (.oscStep (selOf c)) s = .next t ∧
        exec (.oscStep (selOf c)) (s.withOscCtrl c fun k => { k with ring := false }) = .next u ∧
        (c = 0 → t.osc = u.osc) ∧
        (∀ d : Chan, d.val + 1 = c.val →
          t.osc = u.osc.set c { u.osc[c] with out := fmul u.osc[c].out s.osc[d].out }))

/-- 41_oscillators.md R199: the command's words, and its effect on a channel, enabled or not. -/
def Obligations.OscPhaseReset : Prop :=
  (∀ (c : Chan) (v : Word), decode ⟨0x09000000#32 ||| BitVec.ofNat 32 c.val <<< 20, v⟩ = .command (.oscPhaseReset (selOf c))) ∧
  (∀ (n : Fin 16) (v : Word), 4 ≤ n.val → ∃ why, decode ⟨0x09000000#32 ||| BitVec.ofNat 32 n.val <<< 20, v⟩ = .illegal why) ∧
  (∀ (s : State) (c : Chan),
    exec (.oscPhaseReset (selOf c)) s =
      .next { s with osc := s.osc.set c { s.osc[c] with phase := f0, opPhase := #v[f0, f0, f0, f0] } })

/-- The band-limited saw, square and pulse stay in `[-1, 1]`, for increments past `0.5` too (41_oscillators.md R189). -/
def Obligations.PolyBlepRange : Prop :=
  ∀ p dt pw : F64, IsPhase p → inRange (dec 1 2) (dec 99 2) pw = true →
    inRange fNeg1 f1 (blepSaw p dt) = true ∧ inRange fNeg1 f1 (blepSquare p dt) = true ∧
      inRange fNeg1 f1 (blepPulse p dt pw) = true

/-- `FILT_PROC`: the driven input is kept for the next step, the memories of the topologies that do not run keep their
values, the comb line changes only at the indices written, and nothing else changes (42_filters.md R231, R232, R236, R254,
20_memory.md R82). -/
def Obligations.FiltProcFrame : Prop :=
  ∀ s : State, s.MemoriesOk theParams →
    ∃ t, exec .filtProc s = .next t ∧ t = { s with filt := t.filt } ∧
      t.filt.xprev = fmul s.activeP.filt.drive s.filtIn ∧
      (s.activeP.filt.ctrl.topo ≠ .ladder → t.filt.z = s.filt.z ∧ t.filt.ladderY4 = s.filt.ladderY4) ∧
      (s.activeP.filt.ctrl.topo ≠ .formant → t.filt.fq = s.filt.fq) ∧
      (s.activeP.filt.ctrl.topo ≠ .multi → t.filt.s1 = s.filt.s1) ∧
      (s.activeP.filt.ctrl.topo ∈ [.ladder, .comb, .formant] → t.filt.bq = s.filt.bq) ∧
      (s.activeP.filt.ctrl.topo ≠ .comb →
        t.filt.cs = s.filt.cs ∧ t.filt.cw = s.filt.cw ∧ ∀ sp i, t.element sp i = s.element sp i) ∧
      (s.activeP.filt.ctrl.topo = .comb →
        t.filt.cw = (s.filt.cw + 2 ^ s.activeP.filt.ctrl.fovs.val) % theParams.maxComb ∧
        ∀ sp i,
          (∀ k, k < 2 ^ s.activeP.filt.ctrl.fovs.val → ¬(sp = .comb ∧ i = (s.filt.cw + k) % theParams.maxComb)) →
            t.element sp i = s.element sp i)

/-- `FILT_PROC` of the comb without oversampling: the delayed sample is read before the write, the damping state and the
output by the rule, one element stored (42_filters.md R231, R232, R236, R248). -/
def Obligations.CombFilter : Prop :=
  ∀ s : State, s.MemoriesOk theParams → s.activeP.filt.ctrl.topo = .comb → s.activeP.filt.ctrl.fovs = 0 →
    let q := s.activeP.filt
    let len := iclamp (toInt (fmul q.combTime (fmul theParams.fs f1))) 1 theParams.maxComb
    let d := s.element .comb (((s.filt.cw : Int) - len) % theParams.maxComb).toNat
    let cs := fadd (fmul s.filt.cs (fsub f1 q.combDamp)) (fmul d q.combDamp)
    let u := fmul q.drive s.filtIn
    let y := fadd u (fmul cs q.combFb)
    ∃ t, exec .filtProc s = .next t ∧
      (∀ sp i, t.element sp i = if sp = .comb ∧ i = s.filt.cw then y else s.element sp i) ∧
      t = { s with filt := { s.filt with
        out := fdiv (fadd f0 y) f1, xprev := u, cs := cs, cw := (s.filt.cw + 1) % theParams.maxComb,
        cline := t.filt.cline } }

/-- `FB0` to `FA2` read the coefficients of the selected second-order topology at its resonance law and the current rate,
else `0.0`; `EB0` to `EA2` read those of the tone filter (42_filters.md R233, R234, R238, R240, R241, R243, R247,
44_effect_filters.md R334). The second-order topologies without oversampling compute the difference equation with the
coefficients that the host reads, on their shared history; the tone filter does so on each channel (42_filters.md R242,
44_effect_filters.md R335, R342). `ruleCoefs` is `Coef` written out from R241. That a coefficient which is a NaN is read and
used as one pattern is the model's choice (log 5). -/
def Obligations.BiquadFilters : Prop :=
  (∀ s : State,
    let answers (a : BitVec 12) (v : Word) : Prop :=
      exec (.csrRead a) s = .next { s with port := { s.port with responses := s.port.responses ++ [v] } }
    let q := s.activeP.filt
    let reads (k : Vector F64 5) : Prop :=
      answers 0x222 k[0] ∧ answers 0x223 k[1] ∧ answers 0x224 k[2] ∧ answers 0x225 k[3] ∧ answers 0x226 k[4]
    let fcw := ruleWarp (ruleCutoff s) (ruleRate s)
    let e := s.activeP.efx
    let k := ruleCoefs e.ctrl.resp (ruleWarp e.eqFreq theParams.fs) theParams.fs e.eqQ
    (q.ctrl.topo = .svf ∨ (q.ctrl.topo = .multi ∧ ¬OnePoleForm q) →
      reads (ruleCoefs q.ctrl.resp fcw (ruleRate s) (ruleQm q.res))) ∧
    (q.ctrl.topo = .sallenKey → reads (ruleCoefs .lp fcw (ruleRate s) (ruleQsk q.res))) ∧
    (q.ctrl.topo ∈ [.ladder, .comb, .formant] ∨ OnePoleForm q → reads #v[f0, f0, f0, f0, f0]) ∧
    answers 0x41C k[0] ∧ answers 0x41D k[1] ∧ answers 0x41E k[2] ∧ answers 0x41F k[3] ∧ answers 0x420 k[4]) ∧
  ∀ (s : State) (b0 b1 b2 a1 a2 : F64),
    let answers (a : BitVec 12) (v : Word) : Prop :=
      exec (.csrRead a) s = .next { s with port := { s.port with responses := s.port.responses ++ [v] } }
    let output (h : History) (u : F64) : F64 :=
      fsub (fsub (fadd (fadd (fmul b0 u) (fmul b1 h.x1)) (fmul b2 h.x2)) (fmul a1 h.y1)) (fmul a2 h.y2)
    let u := fmul s.activeP.filt.drive s.filtIn
    let emix := s.activeP.efx.emix
    (s.activeP.filt.ctrl.topo ∈ [.multi, .sallenKey, .svf] → ¬OnePoleForm s.activeP.filt → s.activeP.filt.ctrl.fovs = 0 →
      answers 0x222 b0 → answers 0x223 b1 → answers 0x224 b2 → answers 0x225 a1 → answers 0x226 a2 →
        exec .filtProc s =
          .next
            { s with
              filt := { s.filt with
                out := fdiv (fadd f0 (output s.filt.bq u)) f1
                xprev := u
                bq := ⟨u, s.filt.bq.x1, output s.filt.bq u, s.filt.bq.y1⟩ } }) ∧
    (s.activeP.efx.ctrl.mode = .biquad →
      answers 0x41C b0 → answers 0x41D b1 → answers 0x41E b2 → answers 0x41F a1 → answers 0x420 a2 →
        exec .efxProc s =
          .next
            { s with
              efx := { s.efx with
                eqL := ⟨s.inL, s.efx.eqL.x1, output s.efx.eqL s.inL, s.efx.eqL.y1⟩
                eqR := ⟨s.inR, s.efx.eqR.x1, output s.efx.eqR s.inR, s.efx.eqR.y1⟩
                outL := fadd (fmul s.inL (fsub f1 emix)) (fmul (output s.efx.eqL s.inL) emix)
                outR := fadd (fmul s.inR (fsub f1 emix)) (fmul (output s.efx.eqR s.inR) emix) } })

/-- `FILT_PROC` of every topology and oversampling factor: `M` sub-samples on the line from `XPREV` to the driven input,
each through the topology at `FS * M`, the mean of their outputs, and the state the topology leaves; nothing else changes
(42_filters.md R231 to R236, R239, R242 to R244, R247, R248, R250 to R252). `ruleTopo` is `Topo` written out from those
rules: the 1-pole form, the shared biquad, the ladder, the comb and the formant bank with its clamp. Above resonance 0.95
the ladder's output and the value fed back are in `[-1, 1]`, or a NaN (R244, R245). -/
def Obligations.FilterStep : Prop :=
  (∀ s : State,
    let m : Nat := 2 ^ s.activeP.filt.ctrl.fovs.val
    let xd := fmul s.activeP.filt.drive s.filtIn
    let input (k : Nat) : F64 :=
      if k + 1 < m then fadd s.filt.xprev (fmul (fsub xd s.filt.xprev) (fdiv (ofInt (k + 1)) (ofInt m))) else xd
    ∃ (u : Nat → FiltState) (acc : Nat → F64), u 0 = s.filt ∧ acc 0 = f0 ∧
      (∀ k, k < m →
        acc (k + 1) = fadd (acc k) (ruleTopo s (input k) (u k)).1 ∧ u (k + 1) = (ruleTopo s (input k) (u k)).2) ∧
      exec .filtProc s = .next { s with filt := { u m with xprev := xd, out := fdiv (acc m) (ofInt m) } }) ∧
  (∀ s : State, s.activeP.filt.ctrl.topo = .ladder → flt 0x3FEE666666666666 s.activeP.filt.res = true →
    ∃ t, exec .filtProc s = .next t ∧
      (isNaN t.filt.ladderY4 = true ∨ inRange fNeg1 f1 t.filt.ladderY4 = true))

/-- `CUTOFF_EFF` is the rule's expression of the active registers, and lies in `[20, 20000]` where they are in their ranges
(42_filters.md R237). `FILT_G` is `Tan(PI * fcw / FSr)` in the 1-pole form and the ladder, else `0.0` (10_state.md R44,
42_filters.md R238, R239, R244), and `COMB_LEN` is the comb's length at the current rate, in `1..MAXCOMB` (42_filters.md
R248); of a length past 64 bits nothing is said (log 14). -/
def Obligations.EffectiveCutoff : Prop :=
  ∀ s : State,
    let answers (a : BitVec 12) (v : Word) : Prop :=
      exec (.csrRead a) s = .next { s with port := { s.port with responses := s.port.responses ++ [v] } }
    let q := s.activeP.filt
    let f := fclamp
      (fadd (fadd (fadd q.cutoff (fmul (fsub q.noteFreq (ofInt 440)) q.keytrack))
        (fmul (fmul q.envAmt s.activeM.envIn) (ofInt 10000))) (fmul (fmul q.lfoAmt s.activeM.lfoIn) (ofInt 5000)))
      (ofInt 20) (ofInt 20000)
    let rate := fmul theParams.fs (ofInt (2 ^ q.ctrl.fovs.val))
    let g := theParams.tan (fdiv (fmul fPi (fmin f (fmul 0x3FDF5C28F5C28F5C rate))) rate)
    let len := max 1 (min (toInt (fmul q.combTime rate)) (theParams.maxComb : Int))
    answers 0x220 f ∧ (s.ParametersOk theParams → inRange (ofInt 20) (ofInt 20000) f = true) ∧
      (q.ctrl.topo = .ladder ∨ OnePoleForm q → answers 0x221 g) ∧
      (q.ctrl.topo ≠ .ladder → ¬OnePoleForm q → answers 0x221 f0) ∧
      ∃ v, answers 0x229 v ∧ (len < 2 ^ 64 → (v.toNat : Int) = len)

/-- 42_filters.md R256: the command's words, and its effect: the nine shadow registers, nothing else. -/
def Obligations.VowelLoad : Prop :=
  (∀ (w : Vowel) (v : Word),
    decode ⟨0x0E000000#32 ||| BitVec.ofNat 32 w.code <<< 20, v⟩ = .command (.vowelLoad (BitVec.ofNat 4 w.code))) ∧
  (∀ (n : Fin 16) (v : Word), 5 ≤ n.val → ∃ why, decode ⟨0x0E000000#32 ||| BitVec.ofNat 32 n.val <<< 20, v⟩ = .illegal why) ∧
  ∀ (s : State) (v : Vowel),
    exec (.vowelLoad (BitVec.ofNat 4 v.code)) s =
      .next
        { s with
          shadowP := { s.shadowP with
            filt := { s.shadowP.filt with
              formant := #v[theParams.vowel v 0, theParams.vowel v 1, theParams.vowel v 2] } } }

/-- `DLY_PROC`: each line changes at the write index alone, the write index and the four LFO phases advance, and nothing
outside the unit changes (43_delay_lines.md R291, R293, R296, R298, R299, 20_memory.md R82). -/
def Obligations.DlyProcFrame : Prop :=
  ∀ s : State, s.MemoriesOk theParams →
    let q := s.activeP.dly
    ∃ t, exec .dlyProc s = .next t ∧ t = { s with dly := t.dly } ∧
      t.dly.dw = (s.dly.dw + 1) % theParams.maxDly ∧
      (∀ sp i, ¬((sp = .dbufL ∨ sp = .dbufR) ∧ i = s.dly.dw) → t.element sp i = s.element sp i) ∧
      t.dly.lfoL = frac (fadd s.dly.lfoL (fdiv q.chRate theParams.fs)) ∧
      t.dly.lfoR = frac (fadd s.dly.lfoR (fdiv (fmul q.chRate q.chRatio) theParams.fs)) ∧
      t.dly.phWow = frac (fadd s.dly.phWow (fdiv q.wowRate theParams.fs)) ∧
      t.dly.phFlut = frac (fadd s.dly.phFlut (fdiv q.flutRate theParams.fs))

/-- `DLY_PROC` in every mode: the lengths, the interpolated reads, the colouring with the left noise drawn before the right,
the parallel or crossed feedback, the stored samples, the mix and the width (43_delay_lines.md R292 to R295, R298 to R305,
41_oscillators.md R185). `ruleLengths`, `ruleTap` and `ruleDraw` are written out from R292, R294, R295 and R185. -/
def Obligations.DelayModes : Prop :=
  ∀ s : State, s.MemoriesOk theParams →
    let q := s.activeP.dly
    let mode := q.ctrl.mode
    let analog := s.activeP.ctrl.analogEn = true
    let lenL := ruleLimit (ruleLengths s).1
    let lenR := ruleLimit (ruleLengths s).2
    let dl := ruleTap s .dbufL lenL
    let dr := ruleTap s .dbufR lenR
    let g := fdiv (ruleG (ruleWarp q.bbdLpf theParams.fs) theParams.fs)
      (fadd f1 (ruleG (ruleWarp q.bbdLpf theParams.fs) theParams.fs))
    let vl := fmul g (fsub dl s.dly.blpL)
    let vr := fmul g (fsub dr s.dly.blpR)
    let x1 := ruleDraw s.dly.noise
    let x2 := ruleDraw x1
    let bbdL := fadd (fadd vl s.dly.blpL) (fmul q.bbdNoise (ruleNoise x1))
    let bbdR := fadd (fadd vr s.dly.blpR) (fmul q.bbdNoise (ruleNoise x2))
    ∃ t, ∃ wl wr fl fr : F64, exec .dlyProc s = .next t ∧
      (if analog ∧ mode = .bbdChorus then wl = bbdL ∧ wr = bbdR else wl = dl ∧ wr = dr) ∧
      (if analog ∧ (mode = .bbdDelay ∨ mode = .bbdChorus) then
          fl = bbdL ∧ fr = bbdR ∧ t.dly.noise = x2 ∧
            t.dly.blpL = fadd (fadd vl s.dly.blpL) vl ∧ t.dly.blpR = fadd (fadd vr s.dly.blpR) vr
        else
          t.dly.noise = s.dly.noise ∧ t.dly.blpL = s.dly.blpL ∧ t.dly.blpR = s.dly.blpR ∧
            if analog ∧ mode = .tape then fl = theParams.tanh dl ∧ fr = theParams.tanh dr else fl = dl ∧ fr = dr) ∧
      (if q.ctrl.pingPong = true ∧ mode.isDelay then
          t.element .dbufL s.dly.dw = fadd s.inL (fmul q.dfb fr) ∧ t.element .dbufR s.dly.dw = fadd s.inR (fmul q.dfb fl)
        else
          t.element .dbufL s.dly.dw = fadd s.inL (fmul q.dfb fl) ∧
            t.element .dbufR s.dly.dw = fadd s.inR (fmul q.dfb fr)) ∧
      t.dly.lenL = lenL ∧ t.dly.lenR = lenR ∧
      (mode.isDelay →
        t.dly.outL = fadd (fmul s.inL (fsub f1 q.dmix)) (fmul wl (fmul q.dmix q.dwidth)) ∧
        t.dly.outR = fadd (fmul s.inR (fsub f1 q.dmix)) (fmul wr (fmul q.dmix q.dwidth))) ∧
      (¬mode.isDelay →
        t.dly.outL = fadd (fmul s.inL (fsub f1 q.dmix)) (fmul wl q.dmix) ∧
        t.dly.outR = fadd (fmul s.inR (fsub f1 q.dmix)) (fmul wr q.dmix))

/-- With `ANALOG_EN = 0`, on both channels: BBD_DELAY is a plain delay of `BBD_STAGES / BBD_CLOCK` seconds, BBD_CHORUS of the
chorus law and TAPE of the base length, with no low-pass, no noise, no wow, no flutter and no saturation; the stored samples
and the outputs are the uncoloured ones (43_delay_lines.md R293, R294, R305). In that case, and in the modes that are not
BBD, the bucket-brigade memories and the noise generator do not change (R293, R303, R305). -/
def Obligations.AnalogOff : Prop :=
  (∀ s : State,
    (s.activeP.ctrl.analogEn = false ∨ s.activeP.dly.ctrl.mode ∉ [.bbdDelay, .bbdChorus]) →
      ∃ t, exec .dlyProc s = .next t ∧ t.dly.noise = s.dly.noise ∧ t.dly.blpL = s.dly.blpL ∧ t.dly.blpR = s.dly.blpR) ∧
  ∀ s : State, s.MemoriesOk theParams → s.activeP.ctrl.analogEn = false →
    s.activeP.dly.ctrl.mode ∈ [.bbdDelay, .bbdChorus, .tape] →
      let q := s.activeP.dly
      let bbd := fmul (fdiv (ofInt q.bbdStages.toInt) q.bbdClock) theParams.fs
      let chorus (phase : F64) : F64 :=
        fmul (fadd q.chDelay (fmul q.chDepth (fadd fHalf (fmul fHalf (theParams.sin (fmul fTwoPi phase)))))) theParams.fs
      let beatCount : F64 :=
        match q.ctrl.div with
        | .whole => 0x4010000000000000
        | .half => 0x4000000000000000
        | .quarter => 0x3FF0000000000000
        | .eighth => 0x3FE0000000000000
        | .sixteenth => 0x3FD0000000000000
        | .thirtySecond => 0x3FC0000000000000
        | .dottedQuarter => 0x3FF8000000000000
        | .dottedEighth => 0x3FE8000000000000
        | .tripletQuarter => 0x3FE5555555555555
        | .tripletEighth => 0x3FD5555555555555
      let base := fmul
        (if q.ctrl.sync = true then fmul (fdiv (ofInt 60) s.activeP.bpm) beatCount else q.dtime) theParams.fs
      let last := ofInt ((theParams.maxDly : Int) - 2)
      ∃ t, exec .dlyProc s = .next t ∧
        (q.ctrl.mode = .bbdDelay → t.dly.lenL = fclamp bbd f1 last ∧ t.dly.lenR = fclamp bbd f1 last) ∧
        (q.ctrl.mode = .bbdChorus →
          t.dly.lenL = fclamp (chorus s.dly.lfoL) f1 last ∧ t.dly.lenR = fclamp (chorus s.dly.lfoR) f1 last) ∧
        (q.ctrl.mode = .tape → t.dly.lenL = fclamp base f1 last ∧ t.dly.lenR = fclamp base f1 last) ∧
        (let dl := ruleTap s .dbufL t.dly.lenL
        let dr := ruleTap s .dbufR t.dly.lenR
        let crossed := q.ctrl.pingPong = true ∧ q.ctrl.mode ≠ .bbdChorus
        let wet := if q.ctrl.mode = .bbdChorus then q.dmix else fmul q.dmix q.dwidth
        t.element .dbufL s.dly.dw = fadd s.inL (fmul q.dfb (if crossed then dr else dl)) ∧
        t.element .dbufR s.dly.dw = fadd s.inR (fmul q.dfb (if crossed then dl else dr)) ∧
        t.dly.outL = fadd (fmul s.inL (fsub f1 q.dmix)) (fmul dl wet) ∧
        t.dly.outR = fadd (fmul s.inR (fsub f1 q.dmix)) (fmul dr wet))

/-- `EFX_PROC`: the coefficients and the generation's decay are kept, each mode changes its own memories only, the FIR mode
stores each input at the history index and advances it once, and nothing outside the unit changes
(44_effect_filters.md R331, R333, R340, R349). -/
def Obligations.EfxProcFrame : Prop :=
  ∀ s : State, s.MemoriesOk theParams →
    ∃ t, exec .efxProc s = .next t ∧ t = { s with efx := t.efx } ∧ t.efx.irDecayGen = s.efx.irDecayGen ∧
      (s.activeP.efx.ctrl.mode ≠ .biquad → t.efx.eqL = s.efx.eqL ∧ t.efx.eqR = s.efx.eqR) ∧
      (s.activeP.efx.ctrl.mode ≠ .phaser →
        t.efx.phL = s.efx.phL ∧ t.efx.phR = s.efx.phR ∧ t.efx.phLfo = s.efx.phLfo ∧ t.efx.phCoef = s.efx.phCoef) ∧
      (s.activeP.efx.ctrl.mode ≠ .fir → t.efx.hw = s.efx.hw ∧ ∀ sp i, t.element sp i = s.element sp i) ∧
      (s.activeP.efx.ctrl.mode = .fir →
        t.efx.hw = (s.efx.hw + 1) % theParams.maxFir ∧
        ∀ sp i, t.element sp i =
          if sp = .histL ∧ i = s.efx.hw then s.inL else if sp = .histR ∧ i = s.efx.hw then s.inR else s.element sp i)

/-- `EFX_PROC` in FIR mode: each output is the dry input and the convolution of the coefficients with the newest inputs,
summed in ascending order (44_effect_filters.md R333, R340, R342). -/
def Obligations.FirConvolution : Prop :=
  ∀ s : State, s.MemoriesOk theParams → s.activeP.efx.ctrl.mode = .fir →
    let q := s.activeP.efx
    let n : Int := theParams.maxFir
    ∃ t, exec .efxProc s = .next t ∧
      let conv (h hist : Space) (len : Nat) : F64 :=
        (List.range len).foldl
          (fun y i => fadd y (fmul (s.element h i) (t.element hist (((s.efx.hw : Int) - i) % n).toNat))) f0
      t.efx.outL = fadd (fmul s.inL (fsub f1 q.emix)) (fmul (conv .hL .histL q.firLenL.toInt.toNat) q.emix) ∧
      t.efx.outR = fadd (fmul s.inR (fsub f1 q.emix)) (fmul (conv .hR .histR q.firLenR.toInt.toNat) q.emix)

/-- Coefficients at the FIR length and above are not read, and the taps are distinct history elements
(44_effect_filters.md R341). That a NaN result has the same pattern in the two runs compared is the model's choice
(log 5). -/
def Obligations.FirUnusedCoefficients : Prop :=
  (∀ (s : State) (hL hR : Mem),
    (∀ i : Nat, (i : Int) < s.activeP.efx.firLenL.toInt → memRead hL i = s.element .hL i) →
    (∀ i : Nat, (i : Int) < s.activeP.efx.firLenR.toInt → memRead hR i = s.element .hR i) →
      ∃ t, exec .efxProc s = .next t ∧
        exec .efxProc { s with efx := { s.efx with hL := hL, hR := hR } } =
          .next { t with efx := { t.efx with hL := hL, hR := hR } }) ∧
  (∀ hw i j : Nat, i < theParams.maxFir → j < theParams.maxFir → i ≠ j →
    modIndex ((hw : Int) - i) theParams.maxFir ≠ modIndex ((hw : Int) - j) theParams.maxFir)

/-- `EFX_PROC` in PHASER mode: the sweep and its coefficient, the all-pass stages below `PH_STAGES` in order with the
feedback, the LFO advance and the mix on both channels; nothing else changes (44_effect_filters.md R333, R336, R338, R342).
The stages at `PH_STAGES` and above keep their memories (R337). -/
def Obligations.Phaser : Prop :=
  (∀ s : State, s.activeP.efx.ctrl.mode = .phaser →
    let q := s.activeP.efx
    let sweep := fadd q.phMin
      (fmul (fsub q.phMax q.phMin) (fadd fHalf (fmul fHalf (theParams.sin (fmul fTwoPi s.efx.phLfo)))))
    let t := theParams.tan (fdiv (fmul fPi (fmin sweep (fmul 0x3FDF5C28F5C28F5C theParams.fs))) theParams.fs)
    let a := fdiv (fsub t f1) (fadd t f1)
    let channel (x : F64) (m : PhaserMem) : F64 × PhaserMem :=
      (List.finRange 12).foldl
        (fun r (st : Fin 12) =>
          if (st.val : Int) < q.phStages.toInt then
            let y := fsub (fadd (fmul a r.1) r.2.ax[st]) (fmul a r.2.ay[st])
            (y, { r.2 with ax := r.2.ax.set st r.1, ay := r.2.ay.set st y })
          else r)
        (fadd x (fmul q.phFb m.fb), m)
    let l := channel s.inL s.efx.phL
    let r := channel s.inR s.efx.phR
    exec .efxProc s =
      .next
        { s with
          efx := { s.efx with
            phCoef := a
            phL := { l.2 with fb := l.1 }
            phR := { r.2 with fb := r.1 }
            phLfo := frac (fadd s.efx.phLfo (fdiv q.phRate theParams.fs))
            outL := fadd (fmul s.inL (fsub f1 q.emix)) (fmul l.1 q.emix)
            outR := fadd (fmul s.inR (fsub f1 q.emix)) (fmul r.1 q.emix) } }) ∧
  ∀ (s : State) (st : Fin 12), s.activeP.efx.ctrl.mode = .phaser → s.activeP.efx.phStages.toInt ≤ st.val →
    ∃ t, exec .efxProc s = .next t ∧
      t.efx.phL.ax[st] = s.efx.phL.ax[st] ∧ t.efx.phL.ay[st] = s.efx.phL.ay[st] ∧
      t.efx.phR.ax[st] = s.efx.phR.ax[st] ∧ t.efx.phR.ay[st] = s.efx.phR.ay[st]

/-- `IR_GEN`: every coefficient of both channels, both FIR lengths in both copies and the generation's decay by the rule;
the histories, their index and everything else are as before (44_effect_filters.md R345, R347). That a length beyond an
I64 register is its greatest value there is the model's reading (log 14). -/
def Obligations.ImpulseResponse : Prop :=
  ∀ s : State,
    let q := s.activeP.efx
    let len := iclamp (toInt (fmul q.revDecay theParams.fs)) 1 theParams.maxFir
    let tapOf (seed : U32) (i : Nat) : F64 :=
      let n := fsub (fdiv (ofInt (xorshift^[i + 1] seed).toNat) fTwo31) f1
      let a := fdiv (ofInt (len - i)) (ofInt len)
      let e := fsub f1 (fdiv (ofInt i) (ofInt len))
      fmul (fmul n (fmul a a)) (theParams.pow e (fmul q.revDamp (ofInt 10)))
    let lens (b : PBank) : PBank :=
      let word := BitVec.ofInt 64 (min len (2 ^ 63 - 1))
      { b with efx := { b.efx with firLenL := word, firLenR := word } }
    ∃ t, exec .irGen s = .next t ∧
      (∀ i : Nat, t.element .hL i = (if (i : Int) < len then tapOf q.irSeedL i else f0) ∧
        t.element .hR i = (if (i : Int) < len then tapOf q.irSeedR i else f0)) ∧
      t = { s with
        shadowP := lens s.shadowP
        activeP := lens s.activeP
        efx := { s.efx with hL := t.efx.hL, hR := t.efx.hR, irDecayGen := q.revDecay } }

/-- 10_state.md R36: `TICK_COUNT` counts the `TICK` commands; a reset puts it back to 0. -/
def Obligations.TickCount : Prop :=
  ∀ (i : Instr) (s t : State), exec i s = .next t →
    (i = .tick → t.tickCount = s.tickCount + 1) ∧ (i = .softReset → t.tickCount = 0) ∧
    (i ≠ .tick → i ≠ .softReset → t.tickCount = s.tickCount)

/-- `TICK` is the unit commands in the order of the path: the four `OSC_STEP`s, the mix, the filter, the effects in
`CHAIN_ORDER`, each on the sample the stage before passes on, and last the output gain (40_host_commands.md R150, R152). That a NaN result has
the same pattern in `TICK` and in the unit commands is the model's choice (log 5). -/
def Obligations.TickIsThePath : Prop :=
  ∀ s : State,
    ∃ o0 o1 o2 o3 f g h t : State, ∃ v : F64, ∃ x y : F64 × F64,
      exec (.oscStep 0) s = .next o0 ∧ exec (.oscStep 1) o0 = .next o1 ∧ exec (.oscStep 2) o1 = .next o2 ∧
      exec (.oscStep 3) o2 = .next o3 ∧
      let channel (mix : F64) (c : Chan) : F64 :=
        if s.activeP.osc[c].ctrl.en = true then fadd mix (fmul s.activeP.osc[c].gain o3.osc[c].out) else mix
      let mix := channel (channel (channel (channel f0 0) 1) 2) 3
      FilterStage { o3 with oscMix := mix } mix v f ∧
      (if s.activeP.ctrl.chainOrder = false then DelayStage f (v, v) x g ∧ EffectStage g x y h
        else EffectStage f (v, v) x g ∧ DelayStage g x y h) ∧
      exec .tick s = .next t ∧
      t = { h with
        outL := fmul y.1 s.activeM.amp
        outR := fmul y.2 s.activeM.amp
        tickCount := s.tickCount + 1 }

/-- What `TICK` leaves alone: every parameter, the class D registers, `STATUS`, the port and the coefficients; a unit whose
enable bit is 0; a disabled channel but for its output and wrap flag; every memory element but those at the write indices
(40_host_commands.md R150, R151, 10_state.md R30, 20_memory.md R82). -/
def Obligations.TickFrame : Prop :=
  ∀ s : State, s.MemoriesOk theParams →
    ∃ t, exec .tick s = .next t ∧
      t = { s with
        tickCount := t.tickCount, outL := t.outL, outR := t.outR, oscMix := t.oscMix, osc := t.osc, filt := t.filt,
        dly := t.dly, efx := t.efx } ∧
      (∀ c : Chan, s.activeP.osc[c].ctrl.en = false → t.osc[c] = { s.osc[c] with out := f0, wrap := false }) ∧
      (s.activeP.ctrl.filtEn = false → t.filt = s.filt) ∧
      (s.activeP.ctrl.dlyEn = false → t.dly = s.dly) ∧
      (s.activeP.ctrl.efxEn = false → t.efx = s.efx) ∧
      (∀ i, t.element .hL i = s.element .hL i ∧ t.element .hR i = s.element .hR i) ∧
      (∀ i, i ≠ s.dly.dw → t.element .dbufL i = s.element .dbufL i ∧ t.element .dbufR i = s.element .dbufR i) ∧
      (∀ i, i ≠ s.efx.hw → t.element .histL i = s.element .histL i ∧ t.element .histR i = s.element .histR i) ∧
      (∀ i, (∀ k, k < 2 ^ s.activeP.filt.ctrl.fovs.val → i ≠ (s.filt.cw + k) % theParams.maxComb) →
        t.element .comb i = s.element .comb i)

/-- With every channel and every unit disabled a `TICK` gives a zero mix and outputs `+0.0 * A.AMP`, as it does just after
reset (40_host_commands.md R152, 70_reset_and_hazards.md R404). -/
def Obligations.TickSilence : Prop :=
  (∀ s : State, (∀ c : Chan, s.activeP.osc[c].ctrl.en = false) → s.activeP.ctrl.filtEn = false →
    s.activeP.ctrl.dlyEn = false → s.activeP.ctrl.efxEn = false →
      ∃ t, exec .tick s = .next t ∧ t.oscMix = f0 ∧ t.outL = fmul f0 s.activeM.amp ∧ t.outR = fmul f0 s.activeM.amp) ∧
  (∀ c : Chan, State.reset.activeP.osc[c].ctrl.en = false) ∧ State.reset.activeP.ctrl.filtEn = false ∧
  State.reset.activeP.ctrl.dlyEn = false ∧ State.reset.activeP.ctrl.efxEn = false ∧
  (∃ t, exec .tick State.reset = .next t ∧ t.oscMix = f0 ∧ t.outL = f0 ∧ t.outR = f0)

/-- The commands that process sound read only the active copies, the state of the units and, the three unit commands, their
own input registers: no uncommitted parameter write reaches the sound (10_state.md R30, 40_host_commands.md R139,
20_memory.md R90, 70_reset_and_hazards.md R417). That a NaN result has the same pattern in the two runs compared is the
model's choice (log 5). -/
def Obligations.SoundReadsActiveCopies : Prop :=
  ∀ s u : State, s.sound = u.sound →
    (∃ s' u', exec .tick s = .next s' ∧ exec .tick u = .next u' ∧ s'.sound = u'.sound) ∧
    (∀ c : Chan, ∃ s' u', exec (.oscStep (selOf c)) s = .next s' ∧ exec (.oscStep (selOf c)) u = .next u' ∧
      s'.sound = u'.sound) ∧
    (s.filtIn = u.filtIn →
      ∃ s' u', exec .filtProc s = .next s' ∧ exec .filtProc u = .next u' ∧ s'.sound = u'.sound) ∧
    (s.inL = u.inL → s.inR = u.inR →
      (∃ s' u', exec .dlyProc s = .next s' ∧ exec .dlyProc u = .next u' ∧ s'.sound = u'.sound) ∧
      (∃ s' u', exec .efxProc s = .next s' ∧ exec .efxProc u = .next u' ∧ s'.sound = u'.sound))

/-- The idempotent commands: twice in a row leaves the state that once leaves (40_host_commands.md R154). -/
def Obligations.Idempotent : Prop :=
  ∀ (i : Instr) (s : State),
    i ∈ [.commit, .modtick, .softReset, .clrErr] ∨ (∃ sel, i = .resetUnit sel ∧ i.wellFormed = true) ∨
      (∃ sel, i = .oscPhaseReset sel ∧ i.wellFormed = true) →
    ∃ t, exec i s = .next t ∧ exec i t = .next t

/-- Every step keeps every memory in its canonical form and inside its size, and the write indices inside their memories
(20_memory.md R81, R82). -/
def Obligations.MemoriesKept : Prop :=
  ∀ s t : State, s.MemoriesOk theParams → step s = .next t → t.MemoriesOk theParams

/-- Every step keeps `STATUS` at 0 or at one of the five errors and `FIR_ADDR` without reserved bits, and brings no seed and
no noise generator to 0 (10_state.md R35, R41, R53, 60_exceptions.md R370, 41_oscillators.md R185). -/
def Obligations.FieldsAndNoiseKept : Prop :=
  ∀ s t : State, step s = .next t → (s.FieldsOk → t.FieldsOk) ∧ (s.NoiseOk → t.NoiseOk)

/-- Every step keeps both copies of every parameter in its range (40_host_commands.md R135, R136, 42_filters.md R256,
44_effect_filters.md R345). That a generated FIR length past an I64 register is its greatest value is the model's reading
(log 14). -/
def Obligations.ParametersKept : Prop :=
  ∀ s t : State, s.ParametersOk theParams → step s = .next t → t.ParametersOk theParams

/-- Every step keeps every phase in `[0, 1)` while the parameters are in range (41_oscillators.md R175, R198,
43_delay_lines.md R296, 44_effect_filters.md R336). -/
def Obligations.PhasesKept : Prop :=
  ∀ s t : State, s.ParametersOk theParams → s.PhasesOk → step s = .next t → t.PhasesOk

/-- The reset state satisfies every invariant (70_reset_and_hazards.md R400, R401). -/
def Obligations.ResetOk : Prop := State.Ok theParams State.reset

/-- No run stops and every state of it is in order, from any state in order (60_exceptions.md R374, 40_host_commands.md
R130). -/
def Obligations.SafeRun : Prop := ∀ s : State, State.Ok theParams s → SafeFrom s

/-- The parameters satisfy the constraints of the spec and the functions their named properties (00_scope.md R7, R8, R10,
R18). That the `=` of `TanhOdd` is equality of patterns is the model's choice (log 4). -/
def Obligations.ParametersValid : Prop := theParams.Valid

/-- Addition, subtraction and multiplication are correctly rounded (00_scope.md R14). -/
def Obligations.ArithmeticRounds : Prop :=
  ∀ a b : F64, isFinite a = true → isFinite b = true →
    IsRounding (ratOf a + ratOf b) (fadd a b) ∧ IsRounding (ratOf a - ratOf b) (fsub a b) ∧
      IsRounding (ratOf a * ratOf b) (fmul a b)

/-- Division is correctly rounded; a nonzero value over a zero is the signed infinity (00_scope.md R14, R17). -/
def Obligations.DivisionRounds : Prop :=
  ∀ a b : F64, isFinite a = true → isFinite b = true →
    (isZero b = false → IsRounding (ratOf a / ratOf b) (fdiv a b)) ∧
    (isZero b = true → isZero a = false → fdiv a b = signedInf (signBit a != signBit b)) ∧
    (isZero b = true → isZero a = true → isNaN (fdiv a b) = true)

/-- Comparison, `Float`, `Floor` and `ToInt` are those of the numbers (00_scope.md R15). -/
def Obligations.HelperFunctions : Prop :=
  (∀ a b : F64, isFinite a = true → isFinite b = true →
    (flt a b = true ↔ ratOf a < ratOf b) ∧ (fle a b = true ↔ ratOf a ≤ ratOf b) ∧ (feq a b = true ↔ ratOf a = ratOf b)) ∧
  (∀ n : Int, n.natAbs < 2 ^ 53 → isFinite (ofInt n) = true ∧ ratOf (ofInt n) = n) ∧
  (∀ x : F64, isFinite x = true → toInt x = ⌊ratOf x⌋ ∧ isFinite (ffloor x) = true ∧ ratOf (ffloor x) = ⌊ratOf x⌋)
end

