-- ==== Sys2Proof/Laws/Memory.lean ====
section
/-! SUPPORT. Reading after writing, the canonical form, and the coefficient memories of a generation. -/

namespace Sys2Proof.Machine

@[simp] theorem memRead_nil (i : Nat) : memRead [] i = memDefault := rfl

theorem memRead_cons (j : Nat) (v : F64) (m : Mem) (i : Nat) :
    memRead ((j, v) :: m) i = if j = i then v else memRead m i := rfl

theorem memWfFrom_cons {lo size j : Nat} {v : F64} {m : Mem} :
    memWfFrom lo size ((j, v) :: m) = true ↔
      lo ≤ j ∧ j < size ∧ v ≠ memDefault ∧ memWfFrom (j + 1) size m = true := by
  simp [memWfFrom, and_assoc]

theorem memWfFrom_weaken {lo lo' size : Nat} {m : Mem} (h : memWfFrom lo size m = true) (hle : lo' ≤ lo) :
    memWfFrom lo' size m = true := by
  cases m with
  | nil => rfl
  | cons p m =>
    obtain ⟨j, v⟩ := p
    rw [memWfFrom_cons] at h ⊢
    exact ⟨by omega, h.2⟩

/-- An index below every listed one reads as an unlisted index does. -/
theorem memRead_below {lo size i : Nat} {m : Mem} (h : memWfFrom lo size m = true) (hi : i < lo) :
    memRead m i = memDefault := by
  induction m generalizing lo with
  | nil => rfl
  | cons p m ih =>
    obtain ⟨j, v⟩ := p
    rw [memWfFrom_cons] at h
    rw [memRead_cons, if_neg (by omega)]
    exact ih h.2.2.2 (by omega)

/-- An index outside the memory reads as an unlisted index does. -/
theorem memRead_above {lo size i : Nat} {m : Mem} (h : memWfFrom lo size m = true) (hi : size ≤ i) :
    memRead m i = memDefault := by
  induction m generalizing lo with
  | nil => rfl
  | cons p m ih =>
    obtain ⟨j, v⟩ := p
    rw [memWfFrom_cons] at h
    rw [memRead_cons, if_neg (by omega)]
    exact ih h.2.2.2

theorem memRead_memCons {i : Nat} {v : F64} {m : Mem} {lo size : Nat} (h : memWfFrom lo size m = true) (hi : i < lo)
    (j : Nat) : memRead (memCons i v m) j = if j = i then v else memRead m j := by
  unfold memCons
  split
  · next hv =>
    split
    · next hj => rw [hj, hv, memRead_below h hi]
    · rfl
  · rw [memRead_cons]
    by_cases hj : j = i
    · simp [hj]
    · simp [hj, Ne.symm hj]

theorem memWfFrom_memCons {i : Nat} {v : F64} {m : Mem} {lo size : Nat} (h : memWfFrom (i + 1) size m = true)
    (hlo : lo ≤ i) (hi : i < size) : memWfFrom lo size (memCons i v m) = true := by
  unfold memCons
  split
  · exact memWfFrom_weaken h (by omega)
  · next hv => rw [memWfFrom_cons]; exact ⟨hlo, hi, hv, h⟩

theorem memWfFrom_raise {lo size : Nat} {m : Mem} (h : memWfFrom lo size m = true) (i : Nat)
    (hm : ∀ j v rest, m = (j, v) :: rest → i ≤ j) : memWfFrom i size m = true := by
  cases m with
  | nil => rfl
  | cons p m =>
    obtain ⟨j, v⟩ := p
    rw [memWfFrom_cons] at h ⊢
    exact ⟨hm j v m rfl, h.2⟩

/-- Reading after writing (20_memory.md R81). -/
theorem memRead_memWrite {lo size : Nat} {m : Mem} (h : memWfFrom lo size m = true) (i : Nat) (v : F64) (j : Nat) :
    memRead (memWrite m i v) j = if j = i then v else memRead m j := by
  induction m generalizing lo with
  | nil =>
    exact memRead_memCons (m := []) (lo := i + 1) (size := i + 1) rfl (by omega) j
  | cons p m ih =>
    obtain ⟨k, w⟩ := p
    rw [memWfFrom_cons] at h
    unfold memWrite
    split
    · next hlt =>
      exact memRead_memCons (lo := k) (size := size) (memWfFrom_cons.2 ⟨le_refl k, h.2⟩) hlt j
    · split
      · next heq =>
        subst heq
        rw [memRead_memCons h.2.2.2 (by omega), memRead_cons]
        by_cases hj : j = i
        · simp [hj]
        · simp [hj, Ne.symm hj]
      · next hne =>
        rw [memRead_cons, memRead_cons, ih h.2.2.2]
        by_cases hj : j = i
        · subst hj; simp [Ne.symm hne]
        · simp [hj]

theorem memRead_memWrite_same {size : Nat} {m : Mem} (h : memWf size m = true) (i : Nat) (v : F64) :
    memRead (memWrite m i v) i = v := by rw [memRead_memWrite h, if_pos rfl]

theorem memRead_memWrite_other {size : Nat} {m : Mem} (h : memWf size m = true) {i j : Nat} (hj : j ≠ i) (v : F64) :
    memRead (memWrite m i v) j = memRead m j := by rw [memRead_memWrite h, if_neg hj]

theorem memWfFrom_memWrite {lo size : Nat} {m : Mem} (h : memWfFrom lo size m = true) {i : Nat} (v : F64) (hlo : lo ≤ i)
    (hi : i < size) : memWfFrom lo size (memWrite m i v) = true := by
  induction m generalizing lo with
  | nil => exact memWfFrom_memCons rfl hlo hi
  | cons p m ih =>
    obtain ⟨k, w⟩ := p
    rw [memWfFrom_cons] at h
    unfold memWrite
    split
    · next hlt =>
      exact memWfFrom_memCons (memWfFrom_cons.2 ⟨by omega, h.2⟩) hlo hi
    · split
      · next heq => subst heq; exact memWfFrom_memCons h.2.2.2 hlo hi
      · next hne =>
        rw [memWfFrom_cons]
        exact ⟨h.1, h.2.1, h.2.2.1, ih h.2.2.2 (by omega)⟩

/-- A write inside the memory keeps the canonical form. -/
theorem memWf_memWrite {size : Nat} {m : Mem} (h : memWf size m = true) {i : Nat} (v : F64) (hi : i < size) :
    memWf size (memWrite m i v) = true := memWfFrom_memWrite h v (Nat.zero_le i) hi

@[simp] theorem memWf_nil (size : Nat) : memWf size [] = true := rfl

theorem memWfFrom_ext {lo size : Nat} {m n : Mem} (hm : memWfFrom lo size m = true) (hn : memWfFrom lo size n = true)
    (h : ∀ i, memRead m i = memRead n i) : m = n := by
  induction m generalizing lo n with
  | nil =>
    cases n with
    | nil => rfl
    | cons q n =>
      obtain ⟨k, w⟩ := q
      rw [memWfFrom_cons] at hn
      have := h k
      rw [memRead_nil, memRead_cons, if_pos rfl] at this
      exact absurd this.symm hn.2.2.1
  | cons p m ih =>
    obtain ⟨j, v⟩ := p
    have hm' := memWfFrom_cons.1 hm
    cases n with
    | nil =>
      have := h j
      rw [memRead_nil, memRead_cons, if_pos rfl] at this
      exact absurd this hm'.2.2.1
    | cons q n =>
      obtain ⟨k, w⟩ := q
      have hn' := memWfFrom_cons.1 hn
      have hjk : j = k := by
        by_contra hne
        rcases Nat.lt_or_gt_of_ne hne with hlt | hgt
        · have := h j
          rw [memRead_cons, if_pos rfl, memRead_cons, if_neg (Ne.symm hne), memRead_below hn'.2.2.2 (by omega)] at this
          exact hm'.2.2.1 this
        · have := h k
          rw [memRead_cons, if_neg hne, memRead_cons, if_pos rfl, memRead_below hm'.2.2.2 (by omega)] at this
          exact hn'.2.2.1 this.symm
      subst hjk
      have hv : v = w := by simpa [memRead_cons] using h j
      subst hv
      have hrest : m = n := by
        refine ih hm'.2.2.2 hn'.2.2.2 fun i => ?_
        by_cases hi : j = i
        · subst hi
          rw [memRead_below hm'.2.2.2 (by omega), memRead_below hn'.2.2.2 (by omega)]
        · simpa [memRead_cons, hi] using h i
      rw [hrest]

/-- Memories in the canonical form with equal elements are equal. -/
theorem memWf_ext {size : Nat} {m n : Mem} (hm : memWf size m = true) (hn : memWf size n = true)
    (h : ∀ i, memRead m i = memRead n i) : m = n := memWfFrom_ext hm hn h

theorem modIndex_lt {n : Nat} (i : Int) (hn : 0 < n) : modIndex i n < n := by
  unfold modIndex
  have h0 := Int.emod_nonneg i (b := (n : Int)) (by omega)
  have h1 := Int.emod_lt_of_pos i (b := (n : Int)) (by omega)
  omega

theorem nextIndex_lt {n : Nat} (i : Nat) (hn : 0 < n) : nextIndex i n < n := Nat.mod_lt _ hn

theorem iclamp_mem {n lo hi : Int} (h : lo ≤ hi) : lo ≤ iclamp n lo hi ∧ iclamp n lo hi ≤ hi := by
  unfold iclamp; split <;> [omega; split <;> omega]

theorem irLength_mem (P : Params) (decay : F64) (h : 1 ≤ P.maxFir) :
    1 ≤ irLength P decay ∧ irLength P decay ≤ P.maxFir := by
  have := iclamp_mem (n := toInt (fmul decay P.fs)) (lo := 1) (hi := P.maxFir) (by omega)
  unfold irLength
  omega

theorem memWfFrom_irTaps (P : Params) (damp : F64) (len size remaining i : Nat) (x : U32) (h : i + remaining ≤ size) :
    memWfFrom i size (irTaps P damp len remaining i x) = true := by
  induction remaining generalizing i x with
  | zero => rfl
  | succ n ih => exact memWfFrom_memCons (ih (i + 1) _ (by omega)) (le_refl i) (by omega)

/-- A generation leaves the coefficient memory in its canonical form (44_effect_filters.md R345). -/
theorem memWf_impulseResponse (P : Params) (decay damp : F64) (seed : U32) (h : 1 ≤ P.maxFir) :
    memWf P.maxFir (impulseResponse P decay damp seed) = true :=
  memWfFrom_irTaps P damp _ _ _ 0 seed (by have := irLength_mem P decay h; omega)

theorem one_le_maxFir : 1 ≤ theParams.maxFir := Nat.le_max_left ..

/-- Reset leaves every internal memory in its canonical form. -/
theorem memWf_reset (sp : Space) : memWf (sp.size theParams) (State.reset.mem sp) = true := by
  cases sp
  · rfl
  · rfl
  · rfl
  · exact memWf_impulseResponse theParams _ _ _ one_le_maxFir
  · exact memWf_impulseResponse theParams _ _ _ one_le_maxFir
  · rfl
  · rfl

end Sys2Proof.Machine
end

