-- ==== Sys2Proof/Laws/State.lean ====
section
/-! SUPPORT. What each update of the state does to each field. -/

namespace Sys2Proof.Machine

@[simp] theorem raiseErr_shadowP (e : Err) (s : State) : (raiseErr e s).shadowP = s.shadowP := rfl
@[simp] theorem raiseErr_activeP (e : Err) (s : State) : (raiseErr e s).activeP = s.activeP := rfl
@[simp] theorem raiseErr_shadowM (e : Err) (s : State) : (raiseErr e s).shadowM = s.shadowM := rfl
@[simp] theorem raiseErr_activeM (e : Err) (s : State) : (raiseErr e s).activeM = s.activeM := rfl
@[simp] theorem raiseErr_inL (e : Err) (s : State) : (raiseErr e s).inL = s.inL := rfl
@[simp] theorem raiseErr_inR (e : Err) (s : State) : (raiseErr e s).inR = s.inR := rfl
@[simp] theorem raiseErr_filtIn (e : Err) (s : State) : (raiseErr e s).filtIn = s.filtIn := rfl
@[simp] theorem raiseErr_firAddr (e : Err) (s : State) : (raiseErr e s).firAddr = s.firAddr := rfl
@[simp] theorem raiseErr_status (e : Err) (s : State) : (raiseErr e s).status = recordErr e s.status := rfl
@[simp] theorem raiseErr_tickCount (e : Err) (s : State) : (raiseErr e s).tickCount = s.tickCount := rfl
@[simp] theorem raiseErr_outL (e : Err) (s : State) : (raiseErr e s).outL = s.outL := rfl
@[simp] theorem raiseErr_outR (e : Err) (s : State) : (raiseErr e s).outR = s.outR := rfl
@[simp] theorem raiseErr_oscMix (e : Err) (s : State) : (raiseErr e s).oscMix = s.oscMix := rfl
@[simp] theorem raiseErr_osc (e : Err) (s : State) : (raiseErr e s).osc = s.osc := rfl
@[simp] theorem raiseErr_filt (e : Err) (s : State) : (raiseErr e s).filt = s.filt := rfl
@[simp] theorem raiseErr_dly (e : Err) (s : State) : (raiseErr e s).dly = s.dly := rfl
@[simp] theorem raiseErr_efx (e : Err) (s : State) : (raiseErr e s).efx = s.efx := rfl
@[simp] theorem raiseErr_port (e : Err) (s : State) : (raiseErr e s).port = s.port := rfl

@[simp] theorem clearErr_shadowP (s : State) : (clearErr s).shadowP = s.shadowP := rfl
@[simp] theorem clearErr_activeP (s : State) : (clearErr s).activeP = s.activeP := rfl
@[simp] theorem clearErr_shadowM (s : State) : (clearErr s).shadowM = s.shadowM := rfl
@[simp] theorem clearErr_activeM (s : State) : (clearErr s).activeM = s.activeM := rfl
@[simp] theorem clearErr_inL (s : State) : (clearErr s).inL = s.inL := rfl
@[simp] theorem clearErr_inR (s : State) : (clearErr s).inR = s.inR := rfl
@[simp] theorem clearErr_filtIn (s : State) : (clearErr s).filtIn = s.filtIn := rfl
@[simp] theorem clearErr_firAddr (s : State) : (clearErr s).firAddr = s.firAddr := rfl
@[simp] theorem clearErr_status (s : State) : (clearErr s).status = 0 := rfl
@[simp] theorem clearErr_tickCount (s : State) : (clearErr s).tickCount = s.tickCount := rfl
@[simp] theorem clearErr_outL (s : State) : (clearErr s).outL = s.outL := rfl
@[simp] theorem clearErr_outR (s : State) : (clearErr s).outR = s.outR := rfl
@[simp] theorem clearErr_oscMix (s : State) : (clearErr s).oscMix = s.oscMix := rfl
@[simp] theorem clearErr_osc (s : State) : (clearErr s).osc = s.osc := rfl
@[simp] theorem clearErr_filt (s : State) : (clearErr s).filt = s.filt := rfl
@[simp] theorem clearErr_dly (s : State) : (clearErr s).dly = s.dly := rfl
@[simp] theorem clearErr_efx (s : State) : (clearErr s).efx = s.efx := rfl
@[simp] theorem clearErr_port (s : State) : (clearErr s).port = s.port := rfl

@[simp] theorem respond_shadowP (v : Word) (s : State) : (respond v s).shadowP = s.shadowP := rfl
@[simp] theorem respond_activeP (v : Word) (s : State) : (respond v s).activeP = s.activeP := rfl
@[simp] theorem respond_shadowM (v : Word) (s : State) : (respond v s).shadowM = s.shadowM := rfl
@[simp] theorem respond_activeM (v : Word) (s : State) : (respond v s).activeM = s.activeM := rfl
@[simp] theorem respond_inL (v : Word) (s : State) : (respond v s).inL = s.inL := rfl
@[simp] theorem respond_inR (v : Word) (s : State) : (respond v s).inR = s.inR := rfl
@[simp] theorem respond_filtIn (v : Word) (s : State) : (respond v s).filtIn = s.filtIn := rfl
@[simp] theorem respond_firAddr (v : Word) (s : State) : (respond v s).firAddr = s.firAddr := rfl
@[simp] theorem respond_status (v : Word) (s : State) : (respond v s).status = s.status := rfl
@[simp] theorem respond_tickCount (v : Word) (s : State) : (respond v s).tickCount = s.tickCount := rfl
@[simp] theorem respond_outL (v : Word) (s : State) : (respond v s).outL = s.outL := rfl
@[simp] theorem respond_outR (v : Word) (s : State) : (respond v s).outR = s.outR := rfl
@[simp] theorem respond_oscMix (v : Word) (s : State) : (respond v s).oscMix = s.oscMix := rfl
@[simp] theorem respond_osc (v : Word) (s : State) : (respond v s).osc = s.osc := rfl
@[simp] theorem respond_filt (v : Word) (s : State) : (respond v s).filt = s.filt := rfl
@[simp] theorem respond_dly (v : Word) (s : State) : (respond v s).dly = s.dly := rfl
@[simp] theorem respond_efx (v : Word) (s : State) : (respond v s).efx = s.efx := rfl
@[simp] theorem respond_port (v : Word) (s : State) :
    (respond v s).port = { s.port with responses := s.port.responses ++ [v] } := rfl

@[simp] theorem dropPending_shadowP (s : State) : (dropPending s).shadowP = s.shadowP := rfl
@[simp] theorem dropPending_activeP (s : State) : (dropPending s).activeP = s.activeP := rfl
@[simp] theorem dropPending_shadowM (s : State) : (dropPending s).shadowM = s.shadowM := rfl
@[simp] theorem dropPending_activeM (s : State) : (dropPending s).activeM = s.activeM := rfl
@[simp] theorem dropPending_inL (s : State) : (dropPending s).inL = s.inL := rfl
@[simp] theorem dropPending_inR (s : State) : (dropPending s).inR = s.inR := rfl
@[simp] theorem dropPending_filtIn (s : State) : (dropPending s).filtIn = s.filtIn := rfl
@[simp] theorem dropPending_firAddr (s : State) : (dropPending s).firAddr = s.firAddr := rfl
@[simp] theorem dropPending_status (s : State) : (dropPending s).status = s.status := rfl
@[simp] theorem dropPending_tickCount (s : State) : (dropPending s).tickCount = s.tickCount := rfl
@[simp] theorem dropPending_outL (s : State) : (dropPending s).outL = s.outL := rfl
@[simp] theorem dropPending_outR (s : State) : (dropPending s).outR = s.outR := rfl
@[simp] theorem dropPending_oscMix (s : State) : (dropPending s).oscMix = s.oscMix := rfl
@[simp] theorem dropPending_osc (s : State) : (dropPending s).osc = s.osc := rfl
@[simp] theorem dropPending_filt (s : State) : (dropPending s).filt = s.filt := rfl
@[simp] theorem dropPending_dly (s : State) : (dropPending s).dly = s.dly := rfl
@[simp] theorem dropPending_efx (s : State) : (dropPending s).efx = s.efx := rfl
@[simp] theorem dropPending_port (s : State) :
    (dropPending s).port = { s.port with pending := s.port.pending.tail } := rfl

@[simp] theorem windowAdvance_shadowP (s : State) : (windowAdvance s).shadowP = s.shadowP := rfl
@[simp] theorem windowAdvance_activeP (s : State) : (windowAdvance s).activeP = s.activeP := rfl
@[simp] theorem windowAdvance_shadowM (s : State) : (windowAdvance s).shadowM = s.shadowM := rfl
@[simp] theorem windowAdvance_activeM (s : State) : (windowAdvance s).activeM = s.activeM := rfl
@[simp] theorem windowAdvance_inL (s : State) : (windowAdvance s).inL = s.inL := rfl
@[simp] theorem windowAdvance_inR (s : State) : (windowAdvance s).inR = s.inR := rfl
@[simp] theorem windowAdvance_filtIn (s : State) : (windowAdvance s).filtIn = s.filtIn := rfl
@[simp] theorem windowAdvance_firAddr (s : State) : (windowAdvance s).firAddr = firAdvance s.firAddr := rfl
@[simp] theorem windowAdvance_status (s : State) : (windowAdvance s).status = s.status := rfl
@[simp] theorem windowAdvance_tickCount (s : State) : (windowAdvance s).tickCount = s.tickCount := rfl
@[simp] theorem windowAdvance_outL (s : State) : (windowAdvance s).outL = s.outL := rfl
@[simp] theorem windowAdvance_outR (s : State) : (windowAdvance s).outR = s.outR := rfl
@[simp] theorem windowAdvance_oscMix (s : State) : (windowAdvance s).oscMix = s.oscMix := rfl
@[simp] theorem windowAdvance_osc (s : State) : (windowAdvance s).osc = s.osc := rfl
@[simp] theorem windowAdvance_filt (s : State) : (windowAdvance s).filt = s.filt := rfl
@[simp] theorem windowAdvance_dly (s : State) : (windowAdvance s).dly = s.dly := rfl
@[simp] theorem windowAdvance_efx (s : State) : (windowAdvance s).efx = s.efx := rfl
@[simp] theorem windowAdvance_port (s : State) : (windowAdvance s).port = s.port := rfl

@[simp] theorem generateIR_shadowP (P : Params) (s : State) :
    (generateIR P s).shadowP = s.shadowP.withFirLen (firLenWord (irLength P s.activeP.efx.revDecay)) := rfl
@[simp] theorem generateIR_activeP (P : Params) (s : State) :
    (generateIR P s).activeP = s.activeP.withFirLen (firLenWord (irLength P s.activeP.efx.revDecay)) := rfl
@[simp] theorem generateIR_shadowM (P : Params) (s : State) : (generateIR P s).shadowM = s.shadowM := rfl
@[simp] theorem generateIR_activeM (P : Params) (s : State) : (generateIR P s).activeM = s.activeM := rfl
@[simp] theorem generateIR_inL (P : Params) (s : State) : (generateIR P s).inL = s.inL := rfl
@[simp] theorem generateIR_inR (P : Params) (s : State) : (generateIR P s).inR = s.inR := rfl
@[simp] theorem generateIR_filtIn (P : Params) (s : State) : (generateIR P s).filtIn = s.filtIn := rfl
@[simp] theorem generateIR_firAddr (P : Params) (s : State) : (generateIR P s).firAddr = s.firAddr := rfl
@[simp] theorem generateIR_status (P : Params) (s : State) : (generateIR P s).status = s.status := rfl
@[simp] theorem generateIR_tickCount (P : Params) (s : State) : (generateIR P s).tickCount = s.tickCount := rfl
@[simp] theorem generateIR_outL (P : Params) (s : State) : (generateIR P s).outL = s.outL := rfl
@[simp] theorem generateIR_outR (P : Params) (s : State) : (generateIR P s).outR = s.outR := rfl
@[simp] theorem generateIR_oscMix (P : Params) (s : State) : (generateIR P s).oscMix = s.oscMix := rfl
@[simp] theorem generateIR_osc (P : Params) (s : State) : (generateIR P s).osc = s.osc := rfl
@[simp] theorem generateIR_filt (P : Params) (s : State) : (generateIR P s).filt = s.filt := rfl
@[simp] theorem generateIR_dly (P : Params) (s : State) : (generateIR P s).dly = s.dly := rfl
@[simp] theorem generateIR_efx (P : Params) (s : State) :
    (generateIR P s).efx =
      { s.efx with
        hL := impulseResponse P s.activeP.efx.revDecay s.activeP.efx.revDamp s.activeP.efx.irSeedL
        hR := impulseResponse P s.activeP.efx.revDecay s.activeP.efx.revDamp s.activeP.efx.irSeedR
        irDecayGen := s.activeP.efx.revDecay } := rfl
@[simp] theorem generateIR_port (P : Params) (s : State) : (generateIR P s).port = s.port := rfl

@[simp] theorem publishP_shadowP (s : State) : (publishP s).shadowP = s.shadowP := rfl
@[simp] theorem publishP_activeP (s : State) : (publishP s).activeP = s.shadowP := rfl
@[simp] theorem publishP_shadowM (s : State) : (publishP s).shadowM = s.shadowM := rfl
@[simp] theorem publishP_activeM (s : State) : (publishP s).activeM = s.activeM := rfl
@[simp] theorem publishP_inL (s : State) : (publishP s).inL = s.inL := rfl
@[simp] theorem publishP_inR (s : State) : (publishP s).inR = s.inR := rfl
@[simp] theorem publishP_filtIn (s : State) : (publishP s).filtIn = s.filtIn := rfl
@[simp] theorem publishP_firAddr (s : State) : (publishP s).firAddr = s.firAddr := rfl
@[simp] theorem publishP_status (s : State) : (publishP s).status = s.status := rfl
@[simp] theorem publishP_tickCount (s : State) : (publishP s).tickCount = s.tickCount := rfl
@[simp] theorem publishP_outL (s : State) : (publishP s).outL = s.outL := rfl
@[simp] theorem publishP_outR (s : State) : (publishP s).outR = s.outR := rfl
@[simp] theorem publishP_oscMix (s : State) : (publishP s).oscMix = s.oscMix := rfl
@[simp] theorem publishP_osc (s : State) : (publishP s).osc = s.osc := rfl
@[simp] theorem publishP_filt (s : State) : (publishP s).filt = s.filt := rfl
@[simp] theorem publishP_dly (s : State) : (publishP s).dly = s.dly := rfl
@[simp] theorem publishP_efx (s : State) : (publishP s).efx = s.efx := rfl
@[simp] theorem publishP_port (s : State) : (publishP s).port = s.port := rfl

@[simp] theorem publishM_shadowP (s : State) : (publishM s).shadowP = s.shadowP := rfl
@[simp] theorem publishM_activeP (s : State) : (publishM s).activeP = s.activeP := rfl
@[simp] theorem publishM_shadowM (s : State) : (publishM s).shadowM = s.shadowM := rfl
@[simp] theorem publishM_activeM (s : State) : (publishM s).activeM = s.shadowM := rfl
@[simp] theorem publishM_inL (s : State) : (publishM s).inL = s.inL := rfl
@[simp] theorem publishM_inR (s : State) : (publishM s).inR = s.inR := rfl
@[simp] theorem publishM_filtIn (s : State) : (publishM s).filtIn = s.filtIn := rfl
@[simp] theorem publishM_firAddr (s : State) : (publishM s).firAddr = s.firAddr := rfl
@[simp] theorem publishM_status (s : State) : (publishM s).status = s.status := rfl
@[simp] theorem publishM_tickCount (s : State) : (publishM s).tickCount = s.tickCount := rfl
@[simp] theorem publishM_outL (s : State) : (publishM s).outL = s.outL := rfl
@[simp] theorem publishM_outR (s : State) : (publishM s).outR = s.outR := rfl
@[simp] theorem publishM_oscMix (s : State) : (publishM s).oscMix = s.oscMix := rfl
@[simp] theorem publishM_osc (s : State) : (publishM s).osc = s.osc := rfl
@[simp] theorem publishM_filt (s : State) : (publishM s).filt = s.filt := rfl
@[simp] theorem publishM_dly (s : State) : (publishM s).dly = s.dly := rfl
@[simp] theorem publishM_efx (s : State) : (publishM s).efx = s.efx := rfl
@[simp] theorem publishM_port (s : State) : (publishM s).port = s.port := rfl

@[simp] theorem setOsc_shadowP (c : Chan) (o : OscState) (s : State) : (setOsc c o s).shadowP = s.shadowP := rfl
@[simp] theorem setOsc_activeP (c : Chan) (o : OscState) (s : State) : (setOsc c o s).activeP = s.activeP := rfl
@[simp] theorem setOsc_shadowM (c : Chan) (o : OscState) (s : State) : (setOsc c o s).shadowM = s.shadowM := rfl
@[simp] theorem setOsc_activeM (c : Chan) (o : OscState) (s : State) : (setOsc c o s).activeM = s.activeM := rfl
@[simp] theorem setOsc_inL (c : Chan) (o : OscState) (s : State) : (setOsc c o s).inL = s.inL := rfl
@[simp] theorem setOsc_inR (c : Chan) (o : OscState) (s : State) : (setOsc c o s).inR = s.inR := rfl
@[simp] theorem setOsc_filtIn (c : Chan) (o : OscState) (s : State) : (setOsc c o s).filtIn = s.filtIn := rfl
@[simp] theorem setOsc_firAddr (c : Chan) (o : OscState) (s : State) : (setOsc c o s).firAddr = s.firAddr := rfl
@[simp] theorem setOsc_status (c : Chan) (o : OscState) (s : State) : (setOsc c o s).status = s.status := rfl
@[simp] theorem setOsc_tickCount (c : Chan) (o : OscState) (s : State) : (setOsc c o s).tickCount = s.tickCount := rfl
@[simp] theorem setOsc_outL (c : Chan) (o : OscState) (s : State) : (setOsc c o s).outL = s.outL := rfl
@[simp] theorem setOsc_outR (c : Chan) (o : OscState) (s : State) : (setOsc c o s).outR = s.outR := rfl
@[simp] theorem setOsc_oscMix (c : Chan) (o : OscState) (s : State) : (setOsc c o s).oscMix = s.oscMix := rfl
@[simp] theorem setOsc_osc (c : Chan) (o : OscState) (s : State) : (setOsc c o s).osc = s.osc.set c o := rfl
@[simp] theorem setOsc_filt (c : Chan) (o : OscState) (s : State) : (setOsc c o s).filt = s.filt := rfl
@[simp] theorem setOsc_dly (c : Chan) (o : OscState) (s : State) : (setOsc c o s).dly = s.dly := rfl
@[simp] theorem setOsc_efx (c : Chan) (o : OscState) (s : State) : (setOsc c o s).efx = s.efx := rfl
@[simp] theorem setOsc_port (c : Chan) (o : OscState) (s : State) : (setOsc c o s).port = s.port := rfl

@[simp] theorem filtReset_shadowP (s : State) : (filtReset s).shadowP = s.shadowP := rfl
@[simp] theorem filtReset_activeP (s : State) : (filtReset s).activeP = s.activeP := rfl
@[simp] theorem filtReset_shadowM (s : State) : (filtReset s).shadowM = s.shadowM := rfl
@[simp] theorem filtReset_activeM (s : State) : (filtReset s).activeM = s.activeM := rfl
@[simp] theorem filtReset_inL (s : State) : (filtReset s).inL = s.inL := rfl
@[simp] theorem filtReset_inR (s : State) : (filtReset s).inR = s.inR := rfl
@[simp] theorem filtReset_filtIn (s : State) : (filtReset s).filtIn = s.filtIn := rfl
@[simp] theorem filtReset_firAddr (s : State) : (filtReset s).firAddr = s.firAddr := rfl
@[simp] theorem filtReset_status (s : State) : (filtReset s).status = s.status := rfl
@[simp] theorem filtReset_tickCount (s : State) : (filtReset s).tickCount = s.tickCount := rfl
@[simp] theorem filtReset_outL (s : State) : (filtReset s).outL = s.outL := rfl
@[simp] theorem filtReset_outR (s : State) : (filtReset s).outR = s.outR := rfl
@[simp] theorem filtReset_oscMix (s : State) : (filtReset s).oscMix = s.oscMix := rfl
@[simp] theorem filtReset_osc (s : State) : (filtReset s).osc = s.osc := rfl
@[simp] theorem filtReset_filt (s : State) : (filtReset s).filt = filtResetState := rfl
@[simp] theorem filtReset_dly (s : State) : (filtReset s).dly = s.dly := rfl
@[simp] theorem filtReset_efx (s : State) : (filtReset s).efx = s.efx := rfl
@[simp] theorem filtReset_port (s : State) : (filtReset s).port = s.port := rfl

@[simp] theorem dlyReset_shadowP (s : State) : (dlyReset s).shadowP = s.shadowP := rfl
@[simp] theorem dlyReset_activeP (s : State) : (dlyReset s).activeP = s.activeP := rfl
@[simp] theorem dlyReset_shadowM (s : State) : (dlyReset s).shadowM = s.shadowM := rfl
@[simp] theorem dlyReset_activeM (s : State) : (dlyReset s).activeM = s.activeM := rfl
@[simp] theorem dlyReset_inL (s : State) : (dlyReset s).inL = s.inL := rfl
@[simp] theorem dlyReset_inR (s : State) : (dlyReset s).inR = s.inR := rfl
@[simp] theorem dlyReset_filtIn (s : State) : (dlyReset s).filtIn = s.filtIn := rfl
@[simp] theorem dlyReset_firAddr (s : State) : (dlyReset s).firAddr = s.firAddr := rfl
@[simp] theorem dlyReset_status (s : State) : (dlyReset s).status = s.status := rfl
@[simp] theorem dlyReset_tickCount (s : State) : (dlyReset s).tickCount = s.tickCount := rfl
@[simp] theorem dlyReset_outL (s : State) : (dlyReset s).outL = s.outL := rfl
@[simp] theorem dlyReset_outR (s : State) : (dlyReset s).outR = s.outR := rfl
@[simp] theorem dlyReset_oscMix (s : State) : (dlyReset s).oscMix = s.oscMix := rfl
@[simp] theorem dlyReset_osc (s : State) : (dlyReset s).osc = s.osc := rfl
@[simp] theorem dlyReset_filt (s : State) : (dlyReset s).filt = s.filt := rfl
@[simp] theorem dlyReset_dly (s : State) : (dlyReset s).dly = dlyResetState s.activeP.dly.noiseSeed := rfl
@[simp] theorem dlyReset_efx (s : State) : (dlyReset s).efx = s.efx := rfl
@[simp] theorem dlyReset_port (s : State) : (dlyReset s).port = s.port := rfl

@[simp] theorem efxReset_shadowP (s : State) : (efxReset s).shadowP = s.shadowP := rfl
@[simp] theorem efxReset_activeP (s : State) : (efxReset s).activeP = s.activeP := rfl
@[simp] theorem efxReset_shadowM (s : State) : (efxReset s).shadowM = s.shadowM := rfl
@[simp] theorem efxReset_activeM (s : State) : (efxReset s).activeM = s.activeM := rfl
@[simp] theorem efxReset_inL (s : State) : (efxReset s).inL = s.inL := rfl
@[simp] theorem efxReset_inR (s : State) : (efxReset s).inR = s.inR := rfl
@[simp] theorem efxReset_filtIn (s : State) : (efxReset s).filtIn = s.filtIn := rfl
@[simp] theorem efxReset_firAddr (s : State) : (efxReset s).firAddr = s.firAddr := rfl
@[simp] theorem efxReset_status (s : State) : (efxReset s).status = s.status := rfl
@[simp] theorem efxReset_tickCount (s : State) : (efxReset s).tickCount = s.tickCount := rfl
@[simp] theorem efxReset_outL (s : State) : (efxReset s).outL = s.outL := rfl
@[simp] theorem efxReset_outR (s : State) : (efxReset s).outR = s.outR := rfl
@[simp] theorem efxReset_oscMix (s : State) : (efxReset s).oscMix = s.oscMix := rfl
@[simp] theorem efxReset_osc (s : State) : (efxReset s).osc = s.osc := rfl
@[simp] theorem efxReset_filt (s : State) : (efxReset s).filt = s.filt := rfl
@[simp] theorem efxReset_dly (s : State) : (efxReset s).dly = s.dly := rfl
@[simp] theorem efxReset_efx (s : State) : (efxReset s).efx = efxResetState s.efx.hL s.efx.hR s.efx.irDecayGen := rfl
@[simp] theorem efxReset_port (s : State) : (efxReset s).port = s.port := rfl

@[simp] theorem loadVowel_shadowP (P : Params) (v : Vowel) (s : State) :
    (loadVowel P v s).shadowP =
      { s.shadowP with
        filt := { s.shadowP.filt with formant := #v[P.vowel v 0, P.vowel v 1, P.vowel v 2] } } := rfl
@[simp] theorem loadVowel_activeP (P : Params) (v : Vowel) (s : State) : (loadVowel P v s).activeP = s.activeP := rfl
@[simp] theorem loadVowel_shadowM (P : Params) (v : Vowel) (s : State) : (loadVowel P v s).shadowM = s.shadowM := rfl
@[simp] theorem loadVowel_activeM (P : Params) (v : Vowel) (s : State) : (loadVowel P v s).activeM = s.activeM := rfl
@[simp] theorem loadVowel_inL (P : Params) (v : Vowel) (s : State) : (loadVowel P v s).inL = s.inL := rfl
@[simp] theorem loadVowel_inR (P : Params) (v : Vowel) (s : State) : (loadVowel P v s).inR = s.inR := rfl
@[simp] theorem loadVowel_filtIn (P : Params) (v : Vowel) (s : State) : (loadVowel P v s).filtIn = s.filtIn := rfl
@[simp] theorem loadVowel_firAddr (P : Params) (v : Vowel) (s : State) : (loadVowel P v s).firAddr = s.firAddr := rfl
@[simp] theorem loadVowel_status (P : Params) (v : Vowel) (s : State) : (loadVowel P v s).status = s.status := rfl
@[simp] theorem loadVowel_tickCount (P : Params) (v : Vowel) (s : State) :
    (loadVowel P v s).tickCount = s.tickCount := rfl
@[simp] theorem loadVowel_outL (P : Params) (v : Vowel) (s : State) : (loadVowel P v s).outL = s.outL := rfl
@[simp] theorem loadVowel_outR (P : Params) (v : Vowel) (s : State) : (loadVowel P v s).outR = s.outR := rfl
@[simp] theorem loadVowel_oscMix (P : Params) (v : Vowel) (s : State) : (loadVowel P v s).oscMix = s.oscMix := rfl
@[simp] theorem loadVowel_osc (P : Params) (v : Vowel) (s : State) : (loadVowel P v s).osc = s.osc := rfl
@[simp] theorem loadVowel_filt (P : Params) (v : Vowel) (s : State) : (loadVowel P v s).filt = s.filt := rfl
@[simp] theorem loadVowel_dly (P : Params) (v : Vowel) (s : State) : (loadVowel P v s).dly = s.dly := rfl
@[simp] theorem loadVowel_efx (P : Params) (v : Vowel) (s : State) : (loadVowel P v s).efx = s.efx := rfl
@[simp] theorem loadVowel_port (P : Params) (v : Vowel) (s : State) : (loadVowel P v s).port = s.port := rfl

@[simp] theorem oscStep_shadowP (P : Params) (c : Chan) (s : State) : (oscStep P c s).shadowP = s.shadowP := rfl
@[simp] theorem oscStep_activeP (P : Params) (c : Chan) (s : State) : (oscStep P c s).activeP = s.activeP := rfl
@[simp] theorem oscStep_shadowM (P : Params) (c : Chan) (s : State) : (oscStep P c s).shadowM = s.shadowM := rfl
@[simp] theorem oscStep_activeM (P : Params) (c : Chan) (s : State) : (oscStep P c s).activeM = s.activeM := rfl
@[simp] theorem oscStep_inL (P : Params) (c : Chan) (s : State) : (oscStep P c s).inL = s.inL := rfl
@[simp] theorem oscStep_inR (P : Params) (c : Chan) (s : State) : (oscStep P c s).inR = s.inR := rfl
@[simp] theorem oscStep_filtIn (P : Params) (c : Chan) (s : State) : (oscStep P c s).filtIn = s.filtIn := rfl
@[simp] theorem oscStep_firAddr (P : Params) (c : Chan) (s : State) : (oscStep P c s).firAddr = s.firAddr := rfl
@[simp] theorem oscStep_status (P : Params) (c : Chan) (s : State) : (oscStep P c s).status = s.status := rfl
@[simp] theorem oscStep_tickCount (P : Params) (c : Chan) (s : State) : (oscStep P c s).tickCount = s.tickCount := rfl
@[simp] theorem oscStep_outL (P : Params) (c : Chan) (s : State) : (oscStep P c s).outL = s.outL := rfl
@[simp] theorem oscStep_outR (P : Params) (c : Chan) (s : State) : (oscStep P c s).outR = s.outR := rfl
@[simp] theorem oscStep_oscMix (P : Params) (c : Chan) (s : State) : (oscStep P c s).oscMix = s.oscMix := rfl
@[simp] theorem oscStep_osc (P : Params) (c : Chan) (s : State) :
    (oscStep P c s).osc = s.osc.set c (oscStepState P s.activeP.osc[c] s.activeM.modIn[c] (prevOsc c s) s.osc[c]) := rfl
@[simp] theorem oscStep_filt (P : Params) (c : Chan) (s : State) : (oscStep P c s).filt = s.filt := rfl
@[simp] theorem oscStep_dly (P : Params) (c : Chan) (s : State) : (oscStep P c s).dly = s.dly := rfl
@[simp] theorem oscStep_efx (P : Params) (c : Chan) (s : State) : (oscStep P c s).efx = s.efx := rfl
@[simp] theorem oscStep_port (P : Params) (c : Chan) (s : State) : (oscStep P c s).port = s.port := rfl

@[simp] theorem filtStep_shadowP (P : Params) (x : F64) (s : State) : (filtStep P x s).shadowP = s.shadowP := rfl
@[simp] theorem filtStep_activeP (P : Params) (x : F64) (s : State) : (filtStep P x s).activeP = s.activeP := rfl
@[simp] theorem filtStep_shadowM (P : Params) (x : F64) (s : State) : (filtStep P x s).shadowM = s.shadowM := rfl
@[simp] theorem filtStep_activeM (P : Params) (x : F64) (s : State) : (filtStep P x s).activeM = s.activeM := rfl
@[simp] theorem filtStep_inL (P : Params) (x : F64) (s : State) : (filtStep P x s).inL = s.inL := rfl
@[simp] theorem filtStep_inR (P : Params) (x : F64) (s : State) : (filtStep P x s).inR = s.inR := rfl
@[simp] theorem filtStep_filtIn (P : Params) (x : F64) (s : State) : (filtStep P x s).filtIn = s.filtIn := rfl
@[simp] theorem filtStep_firAddr (P : Params) (x : F64) (s : State) : (filtStep P x s).firAddr = s.firAddr := rfl
@[simp] theorem filtStep_status (P : Params) (x : F64) (s : State) : (filtStep P x s).status = s.status := rfl
@[simp] theorem filtStep_tickCount (P : Params) (x : F64) (s : State) :
    (filtStep P x s).tickCount = s.tickCount := rfl
@[simp] theorem filtStep_outL (P : Params) (x : F64) (s : State) : (filtStep P x s).outL = s.outL := rfl
@[simp] theorem filtStep_outR (P : Params) (x : F64) (s : State) : (filtStep P x s).outR = s.outR := rfl
@[simp] theorem filtStep_oscMix (P : Params) (x : F64) (s : State) : (filtStep P x s).oscMix = s.oscMix := rfl
@[simp] theorem filtStep_osc (P : Params) (x : F64) (s : State) : (filtStep P x s).osc = s.osc := rfl
@[simp] theorem filtStep_filt (P : Params) (x : F64) (s : State) :
    (filtStep P x s).filt = filtStepState P s.activeP.filt s.activeM x s.filt := rfl
@[simp] theorem filtStep_dly (P : Params) (x : F64) (s : State) : (filtStep P x s).dly = s.dly := rfl
@[simp] theorem filtStep_efx (P : Params) (x : F64) (s : State) : (filtStep P x s).efx = s.efx := rfl
@[simp] theorem filtStep_port (P : Params) (x : F64) (s : State) : (filtStep P x s).port = s.port := rfl

@[simp] theorem dlyStep_shadowP (P : Params) (l r : F64) (s : State) : (dlyStep P l r s).shadowP = s.shadowP := rfl
@[simp] theorem dlyStep_activeP (P : Params) (l r : F64) (s : State) : (dlyStep P l r s).activeP = s.activeP := rfl
@[simp] theorem dlyStep_shadowM (P : Params) (l r : F64) (s : State) : (dlyStep P l r s).shadowM = s.shadowM := rfl
@[simp] theorem dlyStep_activeM (P : Params) (l r : F64) (s : State) : (dlyStep P l r s).activeM = s.activeM := rfl
@[simp] theorem dlyStep_inL (P : Params) (l r : F64) (s : State) : (dlyStep P l r s).inL = s.inL := rfl
@[simp] theorem dlyStep_inR (P : Params) (l r : F64) (s : State) : (dlyStep P l r s).inR = s.inR := rfl
@[simp] theorem dlyStep_filtIn (P : Params) (l r : F64) (s : State) : (dlyStep P l r s).filtIn = s.filtIn := rfl
@[simp] theorem dlyStep_firAddr (P : Params) (l r : F64) (s : State) : (dlyStep P l r s).firAddr = s.firAddr := rfl
@[simp] theorem dlyStep_status (P : Params) (l r : F64) (s : State) : (dlyStep P l r s).status = s.status := rfl
@[simp] theorem dlyStep_tickCount (P : Params) (l r : F64) (s : State) :
    (dlyStep P l r s).tickCount = s.tickCount := rfl
@[simp] theorem dlyStep_outL (P : Params) (l r : F64) (s : State) : (dlyStep P l r s).outL = s.outL := rfl
@[simp] theorem dlyStep_outR (P : Params) (l r : F64) (s : State) : (dlyStep P l r s).outR = s.outR := rfl
@[simp] theorem dlyStep_oscMix (P : Params) (l r : F64) (s : State) : (dlyStep P l r s).oscMix = s.oscMix := rfl
@[simp] theorem dlyStep_osc (P : Params) (l r : F64) (s : State) : (dlyStep P l r s).osc = s.osc := rfl
@[simp] theorem dlyStep_filt (P : Params) (l r : F64) (s : State) : (dlyStep P l r s).filt = s.filt := rfl
@[simp] theorem dlyStep_dly (P : Params) (l r : F64) (s : State) :
    (dlyStep P l r s).dly = dlyStepState P s.activeP.dly s.activeP.bpm s.activeP.ctrl.analogEn l r s.dly := rfl
@[simp] theorem dlyStep_efx (P : Params) (l r : F64) (s : State) : (dlyStep P l r s).efx = s.efx := rfl
@[simp] theorem dlyStep_port (P : Params) (l r : F64) (s : State) : (dlyStep P l r s).port = s.port := rfl

@[simp] theorem efxStep_shadowP (P : Params) (l r : F64) (s : State) : (efxStep P l r s).shadowP = s.shadowP := rfl
@[simp] theorem efxStep_activeP (P : Params) (l r : F64) (s : State) : (efxStep P l r s).activeP = s.activeP := rfl
@[simp] theorem efxStep_shadowM (P : Params) (l r : F64) (s : State) : (efxStep P l r s).shadowM = s.shadowM := rfl
@[simp] theorem efxStep_activeM (P : Params) (l r : F64) (s : State) : (efxStep P l r s).activeM = s.activeM := rfl
@[simp] theorem efxStep_inL (P : Params) (l r : F64) (s : State) : (efxStep P l r s).inL = s.inL := rfl
@[simp] theorem efxStep_inR (P : Params) (l r : F64) (s : State) : (efxStep P l r s).inR = s.inR := rfl
@[simp] theorem efxStep_filtIn (P : Params) (l r : F64) (s : State) : (efxStep P l r s).filtIn = s.filtIn := rfl
@[simp] theorem efxStep_firAddr (P : Params) (l r : F64) (s : State) : (efxStep P l r s).firAddr = s.firAddr := rfl
@[simp] theorem efxStep_status (P : Params) (l r : F64) (s : State) : (efxStep P l r s).status = s.status := rfl
@[simp] theorem efxStep_tickCount (P : Params) (l r : F64) (s : State) :
    (efxStep P l r s).tickCount = s.tickCount := rfl
@[simp] theorem efxStep_outL (P : Params) (l r : F64) (s : State) : (efxStep P l r s).outL = s.outL := rfl
@[simp] theorem efxStep_outR (P : Params) (l r : F64) (s : State) : (efxStep P l r s).outR = s.outR := rfl
@[simp] theorem efxStep_oscMix (P : Params) (l r : F64) (s : State) : (efxStep P l r s).oscMix = s.oscMix := rfl
@[simp] theorem efxStep_osc (P : Params) (l r : F64) (s : State) : (efxStep P l r s).osc = s.osc := rfl
@[simp] theorem efxStep_filt (P : Params) (l r : F64) (s : State) : (efxStep P l r s).filt = s.filt := rfl
@[simp] theorem efxStep_dly (P : Params) (l r : F64) (s : State) : (efxStep P l r s).dly = s.dly := rfl
@[simp] theorem efxStep_efx (P : Params) (l r : F64) (s : State) :
    (efxStep P l r s).efx = efxStepState P s.activeP.efx l r s.efx := rfl
@[simp] theorem efxStep_port (P : Params) (l r : F64) (s : State) : (efxStep P l r s).port = s.port := rfl

@[simp] theorem taken_shadowP (rest : List Transaction) (s : State) : (s.taken rest).shadowP = s.shadowP := rfl
@[simp] theorem taken_activeP (rest : List Transaction) (s : State) : (s.taken rest).activeP = s.activeP := rfl
@[simp] theorem taken_shadowM (rest : List Transaction) (s : State) : (s.taken rest).shadowM = s.shadowM := rfl
@[simp] theorem taken_activeM (rest : List Transaction) (s : State) : (s.taken rest).activeM = s.activeM := rfl
@[simp] theorem taken_inL (rest : List Transaction) (s : State) : (s.taken rest).inL = s.inL := rfl
@[simp] theorem taken_inR (rest : List Transaction) (s : State) : (s.taken rest).inR = s.inR := rfl
@[simp] theorem taken_filtIn (rest : List Transaction) (s : State) : (s.taken rest).filtIn = s.filtIn := rfl
@[simp] theorem taken_firAddr (rest : List Transaction) (s : State) : (s.taken rest).firAddr = s.firAddr := rfl
@[simp] theorem taken_status (rest : List Transaction) (s : State) : (s.taken rest).status = s.status := rfl
@[simp] theorem taken_tickCount (rest : List Transaction) (s : State) : (s.taken rest).tickCount = s.tickCount := rfl
@[simp] theorem taken_outL (rest : List Transaction) (s : State) : (s.taken rest).outL = s.outL := rfl
@[simp] theorem taken_outR (rest : List Transaction) (s : State) : (s.taken rest).outR = s.outR := rfl
@[simp] theorem taken_oscMix (rest : List Transaction) (s : State) : (s.taken rest).oscMix = s.oscMix := rfl
@[simp] theorem taken_osc (rest : List Transaction) (s : State) : (s.taken rest).osc = s.osc := rfl
@[simp] theorem taken_filt (rest : List Transaction) (s : State) : (s.taken rest).filt = s.filt := rfl
@[simp] theorem taken_dly (rest : List Transaction) (s : State) : (s.taken rest).dly = s.dly := rfl
@[simp] theorem taken_efx (rest : List Transaction) (s : State) : (s.taken rest).efx = s.efx := rfl
@[simp] theorem taken_port (rest : List Transaction) (s : State) :
    (s.taken rest).port = { s.port with pending := rest } := rfl

@[simp] theorem windowWrite_shadowP (v : Word) (s : State) : (windowWrite v s).shadowP = s.shadowP := by
  unfold windowWrite; split <;> rfl
@[simp] theorem windowWrite_activeP (v : Word) (s : State) : (windowWrite v s).activeP = s.activeP := by
  unfold windowWrite; split <;> rfl
@[simp] theorem windowWrite_shadowM (v : Word) (s : State) : (windowWrite v s).shadowM = s.shadowM := by
  unfold windowWrite; split <;> rfl
@[simp] theorem windowWrite_activeM (v : Word) (s : State) : (windowWrite v s).activeM = s.activeM := by
  unfold windowWrite; split <;> rfl
@[simp] theorem windowWrite_inL (v : Word) (s : State) : (windowWrite v s).inL = s.inL := by
  unfold windowWrite; split <;> rfl
@[simp] theorem windowWrite_inR (v : Word) (s : State) : (windowWrite v s).inR = s.inR := by
  unfold windowWrite; split <;> rfl
@[simp] theorem windowWrite_filtIn (v : Word) (s : State) : (windowWrite v s).filtIn = s.filtIn := by
  unfold windowWrite; split <;> rfl
@[simp] theorem windowWrite_firAddr (v : Word) (s : State) : (windowWrite v s).firAddr = s.firAddr := by
  unfold windowWrite; split <;> rfl
@[simp] theorem windowWrite_status (v : Word) (s : State) : (windowWrite v s).status = s.status := by
  unfold windowWrite; split <;> rfl
@[simp] theorem windowWrite_tickCount (v : Word) (s : State) : (windowWrite v s).tickCount = s.tickCount := by
  unfold windowWrite; split <;> rfl
@[simp] theorem windowWrite_outL (v : Word) (s : State) : (windowWrite v s).outL = s.outL := by
  unfold windowWrite; split <;> rfl
@[simp] theorem windowWrite_outR (v : Word) (s : State) : (windowWrite v s).outR = s.outR := by
  unfold windowWrite; split <;> rfl
@[simp] theorem windowWrite_oscMix (v : Word) (s : State) : (windowWrite v s).oscMix = s.oscMix := by
  unfold windowWrite; split <;> rfl
@[simp] theorem windowWrite_osc (v : Word) (s : State) : (windowWrite v s).osc = s.osc := by
  unfold windowWrite; split <;> rfl
@[simp] theorem windowWrite_filt (v : Word) (s : State) : (windowWrite v s).filt = s.filt := by
  unfold windowWrite; split <;> rfl
@[simp] theorem windowWrite_dly (v : Word) (s : State) : (windowWrite v s).dly = s.dly := by
  unfold windowWrite; split <;> rfl
@[simp] theorem windowWrite_port (v : Word) (s : State) : (windowWrite v s).port = s.port := by
  unfold windowWrite; split <;> rfl

@[simp] theorem softResetState_shadowP (P : Params) (s : State) : (softResetState P s).shadowP = (resetState P).shadowP := rfl
@[simp] theorem softResetState_activeP (P : Params) (s : State) : (softResetState P s).activeP = (resetState P).activeP := rfl
@[simp] theorem softResetState_shadowM (P : Params) (s : State) : (softResetState P s).shadowM = (resetState P).shadowM := rfl
@[simp] theorem softResetState_activeM (P : Params) (s : State) : (softResetState P s).activeM = (resetState P).activeM := rfl
@[simp] theorem softResetState_inL (P : Params) (s : State) : (softResetState P s).inL = (resetState P).inL := rfl
@[simp] theorem softResetState_inR (P : Params) (s : State) : (softResetState P s).inR = (resetState P).inR := rfl
@[simp] theorem softResetState_filtIn (P : Params) (s : State) : (softResetState P s).filtIn = (resetState P).filtIn := rfl
@[simp] theorem softResetState_firAddr (P : Params) (s : State) : (softResetState P s).firAddr = (resetState P).firAddr := rfl
@[simp] theorem softResetState_status (P : Params) (s : State) : (softResetState P s).status = (resetState P).status := rfl
@[simp] theorem softResetState_tickCount (P : Params) (s : State) : (softResetState P s).tickCount = (resetState P).tickCount := rfl
@[simp] theorem softResetState_outL (P : Params) (s : State) : (softResetState P s).outL = (resetState P).outL := rfl
@[simp] theorem softResetState_outR (P : Params) (s : State) : (softResetState P s).outR = (resetState P).outR := rfl
@[simp] theorem softResetState_oscMix (P : Params) (s : State) : (softResetState P s).oscMix = (resetState P).oscMix := rfl
@[simp] theorem softResetState_osc (P : Params) (s : State) : (softResetState P s).osc = (resetState P).osc := rfl
@[simp] theorem softResetState_filt (P : Params) (s : State) : (softResetState P s).filt = (resetState P).filt := rfl
@[simp] theorem softResetState_dly (P : Params) (s : State) : (softResetState P s).dly = (resetState P).dly := rfl
@[simp] theorem softResetState_efx (P : Params) (s : State) : (softResetState P s).efx = (resetState P).efx := rfl
@[simp] theorem softResetState_port (P : Params) (s : State) : (softResetState P s).port = s.port := rfl

end Sys2Proof.Machine
end

