-- ==== Sys2Proof/Laws/Ops.lean ====
section
/-! SUPPORT. For each shared operation, everything it can do. -/

namespace Sys2Proof.Machine

/-- The first error is kept, another is recorded (60_exceptions.md R372). -/
theorem recordErr_cases (e : Err) (status : Word) :
    (statusErr status = true ∧ recordErr e status = status) ∨
      (statusErr status = false ∧ recordErr e status = statusOf e) := by
  unfold recordErr
  cases statusErr status <;> simp

theorem statusErr_statusOf (e : Err) : statusErr (statusOf e) = true := by cases e <;> decide

theorem statusCode_statusOf (e : Err) : statusCode (statusOf e) = e.code := by cases e <;> decide

theorem statusErr_zero : statusErr 0 = false := by decide

theorem raiseErr_eq (e : Err) (s : State) : raiseErr e s = { s with status := recordErr e s.status } := rfl

theorem failRead_eq (e : Err) (s : State) :
    failRead e s =
      { s with
        status := recordErr e s.status
        port := { s.port with responses := s.port.responses ++ [0] } } := rfl

theorem illegalWord_cases (w : BitVec 32) (s : State) :
    (hasResponse w = true ∧ illegalWord w s = failRead .illegalCmd s) ∨
      (hasResponse w = false ∧ illegalWord w s = raiseErr .illegalCmd s) := by
  unfold illegalWord
  cases hasResponse w <;> simp

/-- The window's write changes the one memory it is on and nothing else (20_memory.md R83). -/
theorem windowWrite_efx (v : Word) (s : State) :
    (windowWrite v s).efx =
      { s.efx with
        hL := if firRight s.firAddr then s.efx.hL else memWrite s.efx.hL (firIndex s.firAddr) v
        hR := if firRight s.firAddr then memWrite s.efx.hR (firIndex s.firAddr) v else s.efx.hR } := by
  unfold windowWrite; split <;> simp [*]

theorem windowWrite_eq (v : Word) (s : State) : windowWrite v s = { s with efx := (windowWrite v s).efx } := by
  unfold windowWrite; split <;> rfl

theorem commitState_cases (P : Params) (s : State) :
    (feq s.shadowP.efx.revDecay s.efx.irDecayGen = true ∧ commitState P s = publishP s) ∨
      (feq s.shadowP.efx.revDecay s.efx.irDecayGen = false ∧ commitState P s = generateIR P (publishP s)) := by
  unfold commitState
  by_cases h : feq s.shadowP.efx.revDecay s.efx.irDecayGen = true <;> simp [h]

@[simp] theorem setOsc_get_same (c : Chan) (o : OscState) (s : State) : (setOsc c o s).osc[c] = o := by simp

theorem setOsc_get_other {c d : Chan} (h : c ≠ d) (o : OscState) (s : State) : (setOsc c o s).osc[d] = s.osc[d] := by
  have : c.val ≠ d.val := fun hv => h (Fin.ext hv)
  simp [this]

theorem resetUnitState_cases (u : UnitName) (s : State) :
    (∃ c, u = .osc c ∧ resetUnitState u s = setOsc c (oscResetState s.activeP.osc[c].noiseSeed) s) ∨
      (u = .filt ∧ resetUnitState u s = filtReset s) ∨
      (u = .dly ∧ resetUnitState u s = dlyReset s) ∨
      (u = .efx ∧ resetUnitState u s = efxReset s) := by
  cases u <;> simp [resetUnitState, oscReset]

/-- `clamp` returns an end or its argument, and never moves a value outside the range (00_scope.md R15). -/
theorem fclamp_cases (v lo hi : F64) :
    (flt v lo = true ∧ fclamp v lo hi = lo) ∨
      (flt v lo = false ∧ flt hi v = true ∧ fclamp v lo hi = hi) ∨
      (flt v lo = false ∧ flt hi v = false ∧ fclamp v lo hi = v) := by
  unfold fclamp
  cases flt v lo <;> cases flt hi v <;> simp

theorem fle_iff (a b : F64) : fle a b = true ↔ isNaN a = false ∧ isNaN b = false ∧ orderKey a ≤ orderKey b := by
  simp [fle, and_assoc]

theorem flt_iff (a b : F64) : flt a b = true ↔ isNaN a = false ∧ isNaN b = false ∧ orderKey a < orderKey b := by
  simp [flt, and_assoc]

theorem inRange_iff (lo hi x : F64) : inRange lo hi x = true ↔ fle lo x = true ∧ fle x hi = true := by
  simp [inRange]

/-- A clamped non-NaN value is in the range (40_host_commands.md R135). -/
theorem inRange_fclamp {lo hi v : F64} (h : fle lo hi = true) (hv : isNaN v = false) :
    inRange lo hi (fclamp v lo hi) = true := by
  rw [fle_iff] at h
  obtain ⟨h1, h2, h3⟩ := h
  unfold fclamp
  split
  · simp [inRange, fle, h1, h2, h3]
  · next hlo =>
    split
    · simp [inRange, fle, h1, h2, h3]
    · next hhi =>
      simp only [flt, h1, h2, hv, Bool.not_false, Bool.true_and, decide_eq_true_eq, Int.not_lt] at hlo hhi
      simp [inRange, fle, h1, h2, hv, hlo, hhi]

/-- A refused or accepted write, by the register's type (40_host_commands.md R136). -/
theorem writeValue_f64 (lo hi : F64) (v : Word) :
    writeValue (.f64 lo hi) v = if isNaN v then none else some (fclamp v lo hi) := rfl

theorem writeValue_i64 (lo hi : Int) (v : Word) :
    writeValue (.i64 lo hi) v = some (BitVec.ofInt 64 (iclamp v.toInt lo hi)) := rfl

theorem writeValue_seed (v : Word) :
    writeValue .seed v = if v &&& 0xFFFFFFFF = 0 then none else some (v &&& 0xFFFFFFFF) := rfl

@[simp] theorem chanOfSel_selOf (c : Chan) : chanOfSel (selOf c) = some c := by decide +revert

@[simp] theorem unitOfSel_selOf (c : Chan) : unitOfSel (selOf c) = some (.osc c) := by decide +revert

@[simp] theorem vowelOfSel_code (v : Vowel) : vowelOfSel (BitVec.ofNat 4 v.code) = some v := by cases v <;> decide

theorem chanOfSel_eq_some {sel : BitVec 4} (h : (Instr.oscStep sel).wellFormed = true) : ∃ c, sel = selOf c := by
  revert h; decide +revert

theorem unitOfSel_isSome {sel : BitVec 4} (h : (Instr.resetUnit sel).wellFormed = true) :
    (unitOfSel sel).isSome = true := by
  revert h; decide +revert

/-- Every command term ends in a next state (60_exceptions.md R374, 40_host_commands.md R130). -/
theorem exec_next (i : Instr) (s : State) : ∃ t, exec i s = .next t := by
  cases i
  case resetUnit sel => simp only [exec, execResetUnit]; split <;> exact ⟨_, rfl⟩
  case oscStep sel => simp only [exec, execOscStep]; split <;> exact ⟨_, rfl⟩
  case oscPhaseReset sel => simp only [exec, execOscPhaseReset]; split <;> exact ⟨_, rfl⟩
  case vowelLoad sel => simp only [exec, execVowelLoad]; split <;> exact ⟨_, rfl⟩
  all_goals exact ⟨_, rfl⟩

/-- What a step can do. -/
theorem step_cases {s t : State} (h : step s = .next t) :
    (s.port.pending = [] ∧ t = s) ∨
      (∃ x rest i, s.port.pending = x :: rest ∧ decode x = .command i ∧ exec i (s.taken rest) = .next t) ∨
      (∃ x rest why, s.port.pending = x :: rest ∧ decode x = .illegal why ∧ t = illegalWord x.word (s.taken rest)) := by
  unfold step at h
  split at h
  · next hp => exact .inl ⟨hp, by injection h with h; exact h.symm⟩
  · next x rest hp =>
    have hd : dropPending s = s.taken rest := by simp [dropPending, State.taken, hp]
    rw [hd] at h
    split at h
    · next i hi => exact .inr (.inl ⟨x, rest, i, hp, hi, h⟩)
    · next why hw => exact .inr (.inr ⟨x, rest, why, hp, hw, by injection h with h; exact h.symm⟩)

end Sys2Proof.Machine
end

