-- ==== Sys2Proof/Laws/PerInstr.lean ====
section
/-! SUPPORT. One lemma per command about its encoding: the four fields of the command word (30_encoding.md R100) are the
command's opcode, its selector, zero, and its register index. -/

namespace Sys2Proof.Laws.EncodedFields

/-- The fields of the encoded word. -/
def Statement (i : Instr) : Prop :=
  opField (encode i).word = i.opcode ∧ selField (encode i).word = i.selector ∧ rsvField (encode i).word = 0 ∧
    addrField (encode i).word = i.address

/-- The fields of any word put together from its fields. -/
theorem of_commandWord (op : BitVec 8) (sel : BitVec 4) (addr : BitVec 12) :
    opField (commandWord op sel addr) = op ∧ selField (commandWord op sel addr) = sel ∧
      rsvField (commandWord op sel addr) = 0 ∧ addrField (commandWord op sel addr) = addr := by
  refine ⟨?_, ?_, ?_, ?_⟩ <;>
    (ext i hi
     simp only [opField, selField, rsvField, addrField, commandWord, BitVec.getElem_extractLsb', BitVec.getLsbD_append,
       BitVec.getLsbD_zero]
     simp only [← BitVec.getLsbD_eq_getElem]
     repeat (first | rfl | exact (BitVec.getLsbD_zero ..).symm | (split <;> try omega) | (congr 1; omega)))

theorem nop : Statement .nop := of_commandWord ..
theorem tick : Statement .tick := of_commandWord ..
theorem commit : Statement .commit := of_commandWord ..
theorem modtick : Statement .modtick := of_commandWord ..
theorem softReset : Statement .softReset := of_commandWord ..
theorem resetUnit (sel : BitVec 4) : Statement (.resetUnit sel) := of_commandWord ..
theorem clrErr : Statement .clrErr := of_commandWord ..
theorem oscStep (sel : BitVec 4) : Statement (.oscStep sel) := of_commandWord ..
theorem oscPhaseReset (sel : BitVec 4) : Statement (.oscPhaseReset sel) := of_commandWord ..
theorem filtProc : Statement .filtProc := of_commandWord ..
theorem dlyProc : Statement .dlyProc := of_commandWord ..
theorem efxProc : Statement .efxProc := of_commandWord ..
theorem irGen : Statement .irGen := of_commandWord ..
theorem vowelLoad (sel : BitVec 4) : Statement (.vowelLoad sel) := of_commandWord ..
theorem csrWrite (addr : BitVec 12) (data : Word) : Statement (.csrWrite addr data) := of_commandWord ..
theorem csrRead (addr : BitVec 12) : Statement (.csrRead addr) := of_commandWord ..

end Sys2Proof.Laws.EncodedFields
end

