-- ==== Sys2Proof/Laws/Rules.lean ====
section
/-! SUPPORT. The rules' formulas written out in Safety.lean are what the meanings compute: one lemma per formula, so that a
proof of a statement passes from the rule's text to the model's definition once. -/

namespace Sys2Proof.Machine

theorem lit_25 : (0x3FD0000000000000#64 : F64) = dec 25 2 := by decide
theorem lit_75 : (0x3FE8000000000000#64 : F64) = dec 75 2 := by decide
theorem lit_49 : (0x3FDF5C28F5C28F5C#64 : F64) = dec 49 2 := by decide
theorem lit_95 : (0x3FEE666666666666#64 : F64) = dec 95 2 := by decide
theorem lit_q25 : (0x4039000000000000#64 : F64) = ofInt 25 := by decide

/-! ### Oscillators -/

theorem ruleDt_eq (s : State) (c : Chan) : ruleDt s c = dtOf theParams s.activeP.osc[c] s.activeM.modIn[c] := rfl

theorem ruleDraw_eq (x : U32) : ruleDraw x = xorshift x := rfl

theorem ruleNoise_eq (x : U32) : ruleNoise x = noiseValue x := rfl

theorem ruleBlep_eq (t dt : F64) : ruleBlep t dt = blep t dt := rfl

theorem countHarmonics_eq (dt : F64) (n : Nat) :
    (((List.range n).map (· + 1)).filter fun (k : Nat) => flt (fmul (ofInt k) dt) fHalf).length = countHarmonics dt n := by
  induction n with
  | zero => rfl
  | succ n ih =>
    rw [List.range_succ, List.map_append, List.filter_append, List.length_append, ih]
    simp only [countHarmonics, List.map_cons, List.map_nil, List.filter_cons, List.filter_nil]
    rw [show ((n + 1 : Nat) : Int) = (n : Int) + 1 from Nat.cast_succ n]
    split_ifs <;> rfl

theorem sumHarmonics_eq (used : Nat → Bool) (w : Nat → F64) (p : F64) (n : Nat) :
    (((List.range n).map (· + 1)).filter used).foldl
        (fun s (k : Nat) => fadd s (fmul (w k) (theParams.sin (fmul fTwoPi (frac (fmul (ofInt k) p)))))) f0 =
      sumHarmonics theParams (fun k => if used k then some (w k) else none) p n := by
  induction n with
  | zero => rfl
  | succ n ih =>
    rw [List.range_succ, List.map_append, List.filter_append, List.foldl_append, ih]
    simp only [sumHarmonics, List.map_cons, List.map_nil, List.filter_cons, List.filter_nil]
    cases used (n + 1) <;> rfl

theorem ruleSeries_eq (q : OscP) (dts p : F64) (used : Nat → Bool) (w : Nat → F64) :
    ruleSeries q (fmul dts (ofInt ((2 ^ q.ctrl.ovs.val : Nat) : Int))) p used w =
      sumHarmonics theParams (fun k => if used k then some (w k) else none) p (nHarm q dts) := by
  unfold ruleSeries nHarm
  dsimp only
  rw [sumHarmonics_eq, countHarmonics_eq]
  push_cast
  rfl

theorem squareWeight_eq :
    squareWeight = fun (k : Nat) => if decide (k % 2 = 1) then some (fdiv f1 (ofInt k)) else none := by
  funext k; simp [squareWeight]

theorem triWeight_eq :
    triWeight = fun (k : Nat) =>
      if decide (k % 2 = 1) then
        some (if k % 4 = 3 then fneg (fdiv f1 (fmul (ofInt k) (ofInt k))) else fdiv f1 (fmul (ofInt k) (ofInt k)))
      else none := by
  funext k; simp [triWeight]

theorem ruleFm_eq (q : OscP) (dts : F64) (o : OscState) : ruleFm q dts o = fmEval theParams q dts o := by
  unfold ruleFm fmEval fmOutputs fmOperator fmModulation fmRoutes fmCarriers fmRouteWords fmCarrierWords
  have all : ∀ a : Fin 8, a = 0 ∨ a = 1 ∨ a = 2 ∨ a = 3 ∨ a = 4 ∨ a = 5 ∨ a = 6 ∨ a = 7 := by decide
  rcases all q.ctrl.fmAlg with h | h | h | h | h | h | h | h <;> rw [h] <;> rfl

/-- `Eval` of every waveform and band-limiting mode. -/
theorem ruleEval_eq (q : OscP) (p dts : F64) (o : OscState) :
    ruleEval q (2 ^ q.ctrl.ovs.val) p dts o = evalWave theParams q p dts o := by
  unfold ruleEval evalWave
  simp only [ruleFm_eq, ruleBlep_eq, ruleSeries_eq, lit_25, lit_75, ← squareWeight_eq, ← triWeight_eq]
  cases q.ctrl.wave <;> cases q.ctrl.bl <;> rfl

/-- `Eval` leaves the channel's phase alone. -/
theorem evalWave_phase (P : Params) (q : OscP) (p dts : F64) (o : OscState) : (evalWave P q p dts o).2.phase = o.phase := by
  unfold evalWave; cases q.ctrl.wave <;> cases q.ctrl.bl <;> rfl

/-! ### The voice filter -/

theorem ruleCutoff_eq (s : State) : ruleCutoff s = cutoffEff s.activeP.filt s.activeM := rfl

theorem ruleRate_eq (s : State) : ruleRate s = filtRate theParams s.activeP.filt.ctrl := rfl

theorem ruleWarp_eq (f rate : F64) : ruleWarp f rate = warpLimit f rate := by unfold ruleWarp warpLimit; rw [lit_49]

theorem ruleG_eq (f rate : F64) : ruleG f rate = tptG theParams f rate := rfl

theorem ruleQm_eq (p : FiltP) : ruleQm p.res = qMulti p := by unfold ruleQm qMulti; rw [lit_q25]; rfl

theorem onePoleForm_iff (q : FiltP) : OnePoleForm q ↔ onePoleForm q.ctrl = true := by
  unfold OnePoleForm onePoleForm
  rcases q.ctrl with ⟨a, b, c, d⟩
  cases a <;> cases b <;> cases c <;> simp

theorem ruleCoefs_eq (resp : Response) (f rate q : F64) :
    ruleCoefs resp f rate q =
      let k := coefOf theParams resp f rate q
      #v[k.b0, k.b1, k.b2, k.a1, k.a2] := by
  cases resp <;> rfl

theorem ruleCombLen_eq (s : State) :
    ruleCombLen s = combLen theParams s.activeP.filt (filtRate theParams s.activeP.filt.ctrl) := by
  have : 2 ≤ theParams.maxComb := Nat.le_max_left _ _
  unfold ruleCombLen combLen iclamp
  rw [ruleRate_eq]
  split_ifs <;> omega

theorem vector_three {α : Type} (v : Vector α 3) : v = #v[v[0], v[1], v[2]] := by ext i hi; interval_cases i <;> rfl

theorem vector_four {α : Type} (v : Vector α 4) : v = #v[v[0], v[1], v[2], v[3]] := by
  ext i hi; interval_cases i <;> rfl

/-- `Topo` of every topology. -/
theorem ruleTopo_eq (s : State) (u : F64) (f : FiltState) :
    ruleTopo s u f =
      topoStep theParams s.activeP.filt (cutoffEff s.activeP.filt s.activeM) u
        (filtRate theParams s.activeP.filt.ctrl) f := by
  unfold ruleTopo topoStep
  simp only [ruleCombLen_eq, ruleWarp_eq, ruleCoefs_eq, ruleCutoff_eq, ruleRate_eq, ruleQm_eq, lit_95]
  cases ht : s.activeP.filt.ctrl.topo
  · simp only [onePoleForm, ht]
    cases ho : s.activeP.filt.ctrl.onePole <;> cases hr : s.activeP.filt.ctrl.resp <;> simp [onePole, hr] <;>
      first | rfl | exact ⟨rfl, rfl⟩
  · rw [show f = { f with z := #v[f.z[0], f.z[1], f.z[2], f.z[3]] } by rw [← vector_four]]
    rfl
  · rfl
  · rfl
  · rfl
  · rw [show f = { f with fq := #v[f.fq[0], f.fq[1], f.fq[2]] } by rw [← vector_three]]
    rfl

/-! ### The delay-line unit and the FIR lengths -/

theorem ruleLengths_eq (s : State) :
    ruleLengths s = rawLengths theParams s.activeP.dly s.activeP.bpm s.activeP.ctrl.analogEn s.dly := by
  unfold ruleLengths rawLengths
  dsimp only
  cases s.activeP.dly.ctrl.mode <;> rfl

theorem ruleLimit_eq (d : F64) : ruleLimit d = limitLength theParams d := rfl

theorem ruleTap_left (s : State) (d : F64) : ruleTap s .dbufL d = tap theParams s.dly.bufL s.dly.dw d := by
  unfold ruleTap tap lineRead
  simp only [modIndex, ← Int.sub_sub]
  rfl

theorem ruleTap_right (s : State) (d : F64) : ruleTap s .dbufR d = tap theParams s.dly.bufR s.dly.dw d := by
  unfold ruleTap tap lineRead
  simp only [modIndex, ← Int.sub_sub]
  rfl

/-- A U64 register reads the number it stands for where it has the bits for it. -/
theorem u64Of_toNat {n : Nat} (h : n < 2 ^ 64) : (u64Of n).toNat = n := by
  unfold u64Of
  rw [if_pos h, BitVec.toNat_ofNat, Nat.mod_eq_of_lt h]

/-- A FIR length register holds the length, cut to the greatest I64. -/
theorem firLenWord_toInt (len : Nat) : (firLenWord len).toInt = min (len : Int) (2 ^ 63 - 1) := by
  have h : min len (2 ^ 63 - 1) ≤ 2 ^ 63 - 1 := Nat.min_le_right ..
  unfold firLenWord
  rw [BitVec.toInt_eq_toNat_of_lt, BitVec.toNat_ofNat, Nat.mod_eq_of_lt (by omega)]
  · push_cast; rfl
  · rw [BitVec.toNat_ofNat, Nat.mod_eq_of_lt (by omega)]; omega

theorem firLenWord_eq (len : Nat) : firLenWord len = BitVec.ofInt 64 (min (len : Int) (2 ^ 63 - 1)) := by
  unfold firLenWord
  rw [show min (len : Int) (2 ^ 63 - 1) = ((min len (2 ^ 63 - 1) : Nat) : Int) by push_cast; rfl]
  rfl

end Sys2Proof.Machine
end

