-- ==== Sys2Proof/Laws/Units.lean ====
section
/-! SUPPORT. For each unit's step, what it can do to the unit's state: what holds of every sub-step holds of the step, and
which memories a topology or mode leaves alone. -/

namespace Sys2Proof.Machine

/-! ### Oscillator channels -/

/-- What one sub-step keeps, every number of them keeps. -/
theorem subSteps_induct {P : Params} {p : OscP} {dts : F64} (C : SubSteps → Prop)
    (hstep : ∀ r, C r → C (subStep P p dts r)) (n : Nat) (r : SubSteps) (h : C r) : C (subSteps P p dts n r) := by
  induction n generalizing r with
  | zero => exact h
  | succ n ih => exact ih _ (hstep r h)

/-- A waveform changes the noise generator or the FM operators' phases and feedback only. -/
theorem evalWave_cases (P : Params) (p : OscP) (ph dts : F64) (st : OscState) :
    (p.ctrl.wave = .noise ∧ (evalWave P p ph dts st).2 = { st with noise := xorshift st.noise }) ∨
      (p.ctrl.wave = .fm ∧ (evalWave P p ph dts st).2 = (fmEval P p dts st).2) ∨
      (p.ctrl.wave ≠ .noise ∧ p.ctrl.wave ≠ .fm ∧ (evalWave P p ph dts st).2 = st) := by
  unfold evalWave
  split <;> simp [*]

theorem fmEval_state (P : Params) (p : OscP) (dts : F64) (st : OscState) :
    (fmEval P p dts st).2 =
      { st with
        fmFb := (fmOutputs P p st)[3]
        opPhase := Vector.ofFn fun j : Fin 4 => frac (fadd st.opPhase[j] (fmul p.fmRatio[j] dts)) } := rfl

/-- The phase after one advance (41_oscillators.md R175). -/
theorem advancePhase_cases (dts : F64) (st : OscState) :
    (fle f1 (fadd st.phase dts) = true ∧
        advancePhase dts st = ({ st with phase := fsub (fadd st.phase dts) f1 }, true)) ∨
      (fle f1 (fadd st.phase dts) = false ∧ advancePhase dts st = ({ st with phase := fadd st.phase dts }, false)) := by
  unfold advancePhase
  by_cases h : fle f1 (fadd st.phase dts) = true <;> simp [h]

/-- A disabled channel's step (41_oscillators.md R173). -/
theorem oscStepState_disabled {P : Params} {p : OscP} (h : p.ctrl.en = false) (modIn : F64) (prev : Option OscState)
    (st : OscState) : oscStepState P p modIn prev st = { st with out := f0, wrap := false } := by
  unfold oscStepState; simp [h]

/-- An enabled channel's step (41_oscillators.md R172). -/
theorem oscStepState_enabled {P : Params} {p : OscP} (h : p.ctrl.en = true) (modIn : F64) (prev : Option OscState)
    (st : OscState) :
    oscStepState P p modIn prev st =
      let m : Nat := 2 ^ p.ctrl.ovs.val
      let r := subSteps P p (fdiv (dtOf P p modIn) (ofInt m)) m ⟨syncPhase p prev st, f0, false⟩
      { r.st with out := ringOut p prev (fdiv r.acc (ofInt m)), wrap := r.wrapped } := by
  unfold oscStepState; simp [h]

/-! ### Voice filter -/

/-- What one topology step keeps, every number of sub-samples keeps. -/
theorem filtSubSteps_induct {P : Params} {p : FiltP} {cutoff xprev xd rate : F64} {m : Nat} (C : FiltState → Prop)
    (hstep : ∀ u st, C st → C (topoStep P p cutoff u rate st).2) (n k : Nat) (r : F64 × FiltState) (h : C r.2) :
    C (filtSubSteps P p cutoff xprev xd rate m n k r).2 := by
  induction n generalizing k r with
  | zero => exact h
  | succ n ih => exact ih (k + 1) _ (hstep _ _ h)

/-- The same for a property that the number of sub-samples run so far counts. -/
theorem filtSubSteps_count {P : Params} {p : FiltP} {cutoff xprev xd rate : F64} {m : Nat} (C : Nat → FiltState → Prop)
    (hstep : ∀ j u st, C j st → C (j + 1) (topoStep P p cutoff u rate st).2) (n k j : Nat) (r : F64 × FiltState)
    (h : C j r.2) : C (j + n) (filtSubSteps P p cutoff xprev xd rate m n k r).2 := by
  induction n generalizing k j r with
  | zero => exact h
  | succ n ih =>
    have := ih (k + 1) (j + 1) (fadd r.1 (topoStep P p cutoff (filtInput xprev xd m k) rate r.2).1,
      (topoStep P p cutoff (filtInput xprev xd m k) rate r.2).2) (hstep _ _ _ h)
    rwa [show j + 1 + n = j + (n + 1) by omega] at this

/-- Which memories a topology writes (42_filters.md R254). -/
theorem topoStep_frame (P : Params) (p : FiltP) (cutoff u rate : F64) (st : FiltState) :
    let t := (topoStep P p cutoff u rate st).2
    t.out = st.out ∧ t.xprev = st.xprev ∧
      (p.ctrl.topo ≠ .ladder → t.z = st.z ∧ t.ladderY4 = st.ladderY4) ∧
      (p.ctrl.topo ≠ .formant → t.fq = st.fq) ∧
      (p.ctrl.topo ≠ .multi → t.s1 = st.s1) ∧
      (p.ctrl.topo = .ladder ∨ p.ctrl.topo = .comb ∨ p.ctrl.topo = .formant → t.bq = st.bq) ∧
      (p.ctrl.topo ≠ .comb → t.cs = st.cs ∧ t.cw = st.cw ∧ t.cline = st.cline) := by
  unfold topoStep
  cases p.ctrl.topo
  · by_cases h : onePoleForm p.ctrl = true <;> simp [h, onePole, sharedBiquad]
  all_goals simp [ladder, sharedBiquad, comb, formantBank]

/-- The comb's step (42_filters.md R248). -/
theorem topoStep_comb {P : Params} {p : FiltP} (h : p.ctrl.topo = .comb) (cutoff u rate : F64) (st : FiltState) :
    topoStep P p cutoff u rate st = comb P p u rate st := by unfold topoStep; simp [h]

/-- The ladder's output is what it feeds back, and above resonance 0.95 it is clamped (42_filters.md R244). -/
theorem ladder_out (P : Params) (p : FiltP) (u fcw rate : F64) (st : FiltState) :
    (ladder P p u fcw rate st).2.ladderY4 = (ladder P p u fcw rate st).1 ∧
      (flt (dec 95 2) p.res = true → ∃ y, (ladder P p u fcw rate st).1 = fclamp y fNeg1 f1) := by
  refine ⟨rfl, fun h => ?_⟩
  simp only [ladder, h, if_true]
  exact ⟨_, rfl⟩

/-! ### Delay-line unit -/

/-- Both channels' colouring changes the low-pass memories and the noise generator only (43_delay_lines.md R303). -/
theorem bbdPair_state (P : Params) (q : DlyP) (dl dr : F64) (st : DlyState) :
    (bbdPair P q dl dr st).2.2 =
      { st with
        blpL := (bbd P q dl st.blpL st.noise).2.1
        blpR := (bbd P q dr st.blpR (xorshift st.noise)).2.1
        noise := xorshift (xorshift st.noise) } := rfl

/-- The colouring of a mode: in the bucket-brigade modes with analog modelling both channels are coloured, elsewhere the
state is kept (43_delay_lines.md R293, R305). -/
theorem colour_state (P : Params) (q : DlyP) (analog : Bool) (dl dr : F64) (st : DlyState) :
    (colour P q analog dl dr st).st = (bbdPair P q dl dr st).2.2 ∧ analog = true ∧
        (q.ctrl.mode = .bbdDelay ∨ q.ctrl.mode = .bbdChorus) ∨
      (colour P q analog dl dr st).st = st ∧
        (analog = false ∨ q.ctrl.mode ≠ .bbdDelay ∧ q.ctrl.mode ≠ .bbdChorus) := by
  unfold colour
  cases q.ctrl.mode <;> cases analog <;> simp

/-! ### Effect-filter unit -/

/-- What one all-pass stage keeps, the channel's stages keep. -/
theorem phaserChannel_induct (q : EfxP) (a x : F64) (m : PhaserMem) (C : PhaserMem → Prop)
    (hstep : ∀ r : F64 × PhaserMem, ∀ st, st ∈ phaserStages q → C r.2 → C (phaserStage a r st).2) (h : C m) :
    C ((phaserStages q).foldl (phaserStage a) (fadd x (fmul q.phFb m.fb), m)).2 := by
  have : ∀ (l : List (Fin 12)) (r : F64 × PhaserMem), (∀ st ∈ l, st ∈ phaserStages q) → C r.2 →
      C (l.foldl (phaserStage a) r).2 := by
    intro l
    induction l with
    | nil => intro r _ hr; exact hr
    | cons st l ih =>
      intro r hl hr
      exact ih _ (fun s hs => hl s (List.mem_cons_of_mem _ hs)) (hstep r st (hl st List.mem_cons_self) hr)
  exact this _ _ (fun _ h => h) h

/-- The unit step by mode (44_effect_filters.md R333). -/
theorem efxStepState_cases (P : Params) (q : EfxP) (xl xr : F64) (st : EfxState) :
    ∃ w : Wet, efxStepState P q xl xr st =
        { w.st with outL := mixOut xl w.wl q.emix q.emix, outR := mixOut xr w.wr q.emix q.emix } ∧
      ((q.ctrl.mode = .biquad ∧ w = efxBiquad P q xl xr st) ∨ (q.ctrl.mode = .phaser ∧ w = efxPhaser P q xl xr st) ∨
        (q.ctrl.mode = .fir ∧ w = efxFir P q xl xr st)) := by
  unfold efxStepState
  cases q.ctrl.mode
  · exact ⟨_, rfl, .inl ⟨rfl, rfl⟩⟩
  · exact ⟨_, rfl, .inr (.inl ⟨rfl, rfl⟩)⟩
  · exact ⟨_, rfl, .inr (.inr ⟨rfl, rfl⟩)⟩

/-! ### The path -/

theorem pathFilter_cases (P : Params) (v : F64) (s : State) :
    (s.activeP.ctrl.filtEn = true ∧
        pathFilter P v s = ⟨(filtStep P v s).filt.out, (filtStep P v s).filt.out, filtStep P v s⟩) ∨
      (s.activeP.ctrl.filtEn = false ∧ pathFilter P v s = ⟨v, v, s⟩) := by
  unfold pathFilter
  by_cases h : s.activeP.ctrl.filtEn = true <;> simp [h]

theorem pathDelay_cases (P : Params) (p : Path) :
    (p.s.activeP.ctrl.dlyEn = true ∧
        pathDelay P p = ⟨(dlyStep P p.l p.r p.s).dly.outL, (dlyStep P p.l p.r p.s).dly.outR, dlyStep P p.l p.r p.s⟩) ∨
      (p.s.activeP.ctrl.dlyEn = false ∧ pathDelay P p = p) := by
  unfold pathDelay
  by_cases h : p.s.activeP.ctrl.dlyEn = true <;> simp [h]

theorem pathEffect_cases (P : Params) (p : Path) :
    (p.s.activeP.ctrl.efxEn = true ∧
        pathEffect P p = ⟨(efxStep P p.l p.r p.s).efx.outL, (efxStep P p.l p.r p.s).efx.outR, efxStep P p.l p.r p.s⟩) ∨
      (p.s.activeP.ctrl.efxEn = false ∧ pathEffect P p = p) := by
  unfold pathEffect
  by_cases h : p.s.activeP.ctrl.efxEn = true <;> simp [h]

end Sys2Proof.Machine
end

