-- ==== Sys2Proof/Tests/Slice0.lean ====
section
/-! SUPPORT. Tests: the well-formedness checks, words written out from 30_encoding.md, one or two steps per command with
values from spec/95_test_vectors.md, and for every statement with hypotheses a state and operands that meet them. -/

namespace Sys2Proof.Machine.Tests

-- one test at a time: many kernel checks at once ask for more threads than a limited process may have
set_option Elab.async false

/-! ### Well-formedness (30_encoding.md R103) -/

theorem test_wf_resetUnit : (Instr.resetUnit 6).wellFormed = true ∧ (Instr.resetUnit 7).wellFormed = false := by decide
theorem test_wf_oscStep : (Instr.oscStep 3).wellFormed = true ∧ (Instr.oscStep 4).wellFormed = false := by decide
theorem test_wf_oscPhaseReset :
    (Instr.oscPhaseReset 3).wellFormed = true ∧ (Instr.oscPhaseReset 4).wellFormed = false := by decide
theorem test_wf_vowelLoad : (Instr.vowelLoad 4).wellFormed = true ∧ (Instr.vowelLoad 5).wellFormed = false := by decide

/-! ### Decoding: words written from R100, R101 and R114, and the table of 95_test_vectors.md 2.1 -/

theorem test_decode_nop : decode ⟨0x00000000, 0⟩ = .command .nop := by decide
theorem test_decode_tick : decode ⟨0x01000000, 0⟩ = .command .tick := by decide
theorem test_decode_commit : decode ⟨0x02000000, 0⟩ = .command .commit := by decide
theorem test_decode_modtick : decode ⟨0x03000000, 0⟩ = .command .modtick := by decide
theorem test_decode_softReset : decode ⟨0x04000000, 0⟩ = .command .softReset := by decide
theorem test_decode_resetUnit : decode ⟨0x05600000, 0⟩ = .command (.resetUnit 6) := by decide
theorem test_decode_clrErr : decode ⟨0x06000000, 0⟩ = .command .clrErr := by decide
theorem test_decode_oscStep : decode ⟨0x08300000, 0⟩ = .command (.oscStep 3) := by decide
theorem test_decode_oscPhaseReset : decode ⟨0x09200000, 0⟩ = .command (.oscPhaseReset 2) := by decide
theorem test_decode_filtProc : decode ⟨0x0A000000, 0⟩ = .command .filtProc := by decide
theorem test_decode_dlyProc : decode ⟨0x0B000000, 0⟩ = .command .dlyProc := by decide
theorem test_decode_efxProc : decode ⟨0x0C000000, 0⟩ = .command .efxProc := by decide
theorem test_decode_irGen : decode ⟨0x0D000000, 0⟩ = .command .irGen := by decide
theorem test_decode_vowelLoad : decode ⟨0x0E400000, 0⟩ = .command (.vowelLoad 4) := by decide
theorem test_decode_csrWrite : decode ⟨0x10000FFF, 0x407B800000000000⟩ = .command (.csrWrite 0xFFF 0x407B800000000000) := by
  decide
theorem test_decode_csrRead : decode ⟨0x11000010, 0⟩ = .command (.csrRead 0x010) := by decide
theorem test_decode_illegal :
    [0x00100000#32, 0x05700000, 0x08400000, 0x0E500000, 0x07000000, 0x0F000000, 0x12000000, 0xFF000000, 0x01000001,
      0x01001000, 0x10100101].all (fun w => match decode ⟨w, 0⟩ with | .illegal _ => true | .command _ => false) = true := by
  decide
/-- The opcode table's row of CSR_WRITE: the data beat is bits 95:32. -/
theorem test_decodeTableWord_csrWrite :
    decodeTableWord 96 (0x407B800000000000 * 2 ^ 32 + 0x10000101) = some (.csrWrite 0x101 0x407B800000000000) := by decide

/-! ### Single steps: 95_test_vectors.md at its reference parameters, with functions that have the properties of R18 -/

/-- The reference parameters (00_scope.md R7, R8); the functions are constant but where R18 fixes them. -/
def refParams : Params where
  fs := ofInt 48000
  maxDly := 262144
  maxComb := 65536
  maxFir := 131072
  vowel := fun _ k => ⟨ofInt (1000 * (k.val + 1)), ofInt 100, f1⟩
  sin := sinOf fun _ => f0
  cos := cosOf fun _ => f0
  tan := tanOf fun _ => f1
  tanh := tanhOf fun _ => f0
  exp2 := exp2Of fun _ => f1
  pow := powOf fun _ _ => f1

/-- The reset parameters with FIR lengths 1. -/
def baseBank : PBank := (resetPBank refParams).withFirLen 1

/-- The reset state with FIR lengths 1 and no coefficient. -/
def base : State := { resetState refParams with shadowP := baseBank, activeP := baseBank, efx := efxResetState [] [] f1 }

/-- `base` with a committed parameter change. -/
def withP (f : PBank → PBank) (s : State) : State := { s with activeP := f s.activeP, shadowP := f s.shadowP }

/-- `base` with channel `c` set up. -/
def withOsc (c : Chan) (f : OscP → OscP) (s : State) : State :=
  withP (fun b => { b with osc := b.osc.set c (f b.osc[c]) }) s

/-- `base` with the voice filter set up. -/
def withFilt (f : FiltP → FiltP) (s : State) : State := withP (fun b => { b with filt := f b.filt }) s

/-- `base` with the delay-line unit set up. -/
def withDly (f : DlyP → DlyP) (s : State) : State := withP (fun b => { b with dly := f b.dly }) s

/-- `base` with the effect-filter unit set up. -/
def withEfx (f : EfxP → EfxP) (s : State) : State := withP (fun b => { b with efx := f b.efx }) s

/-- A channel's control fields (`OSC_CTRL`) with the channel enabled. -/
def oscCtrl (w : Wave) (bl : BandLimit) : OscCtrl := ⟨true, w, bl, 0, false, false, 0⟩

theorem test_nop : exec .nop base = .next base := rfl

/-- Host program 6 of the vectors, first tick: square 1.0 through comb, delay and a one-tap FIR of 0.5, AMP 0.5. -/
def pathState : State :=
  let s := withOsc 0 (fun p => { p with ctrl := oscCtrl .square .naive, freq := 0x40C7700000000000 }) base
  let s := withFilt (fun p => { p with ctrl := ⟨.comb, .lp, false, 0⟩, combTime := 0x3F05D867C3ECE2A5, combDamp := f1 }) s
  let s := withDly (fun p => { p with dtime := 0x3F05D867C3ECE2A5 }) s
  let s := withEfx (fun p => { p with ctrl := ⟨.fir, .lp⟩ }) s
  let s := withP (fun b => { b with ctrl := ⟨true, true, true, false, true⟩ }) s
  { s with activeM := { s.activeM with amp := fHalf }, efx := { s.efx with hL := [(0, fHalf)], hR := [(0, fHalf)] } }

theorem test_tick_path :
    let t := tickState refParams pathState
    [t.oscMix, t.filt.out, t.dly.outL, t.efx.outL, t.outL] =
      [f1, f1, fHalf, 0x3FD0000000000000, 0x3FC0000000000000] ∧ t.tickCount = 1 := by
  decide +kernel

theorem test_commit_publishes :
    (commitState refParams { base with shadowP := { baseBank with bpm := ofInt 90 } }).activeP.bpm = ofInt 90 := by
  decide +kernel

/-- `REV_DECAY = 0.0001`: the commit regenerates a response of 4 taps. -/
theorem test_commit_regenerates :
    let s := withEfx (fun p => { p with revDecay := dec 1 4, revDamp := f0 }) base
    let t := commitState refParams s
    t.shadowP.efx.firLenL = 4 ∧ t.activeP.efx.firLenR = 4 ∧ t.efx.irDecayGen = dec 1 4 := by
  decide +kernel

theorem test_modtick :
    (publishM { base with shadowM := { base.shadowM with amp := fHalf }, shadowP := { baseBank with bpm := f1 } }).activeM.amp =
      fHalf := by
  decide +kernel

theorem test_softReset_status :
    (softResetState refParams { base with status := 0x401, inL := f1 }).status = 0 ∧
      (softResetState refParams { base with status := 0x401, inL := f1 }).inL = f0 := by
  decide +kernel

theorem test_resetUnit_osc :
    let s := { base with osc := base.osc.set 1 ⟨fHalf, f1, true, 5, #v[f1, f1, f1, f1], f1⟩ }
    (oscReset 1 s).osc[1] = ⟨f0, f0, false, 0x9E3779BA, #v[f0, f0, f0, f0], f0⟩ ∧ (oscReset 1 s).osc[0] = s.osc[0] := by
  decide +kernel

theorem test_resetUnit_efx :
    let s := { base with efx := { base.efx with hL := [(0, f1)], histL := [(3, f1)], hw := 4, irDecayGen := f2 } }
    let t := efxReset s
    t.efx.hL = [(0, f1)] ∧ t.efx.histL = [] ∧ t.efx.hw = 0 ∧ t.efx.irDecayGen = f2 := by
  decide +kernel

theorem test_clrErr : exec .clrErr { base with status := 0x401 } = .next base := rfl

/-- Saw, PolyBLEP, FREQ 6000: the second sample, and the phase after it. -/
theorem test_oscStep_saw :
    let s := withOsc 0 (fun p => { p with ctrl := oscCtrl .saw .polyBlep, freq := 0x40B7700000000000 }) base
    let t := oscStep refParams 0 { s with osc := s.osc.set 0 { s.osc[0] with phase := 0x3FC0000000000000 } }
    t.osc[0].out = 0xBFE8000000000000 ∧ t.osc[0].phase = 0x3FD0000000000000 ∧ t.osc[0].wrap = false := by
  decide +kernel

/-- Noise: the first draw of channel 0. -/
theorem test_oscStep_noise :
    let s := withOsc 0 (fun p => { p with ctrl := oscCtrl .noise .naive }) base
    (oscStep refParams 0 s).osc[0].noise = 0x510C4619 ∧ (oscStep refParams 0 s).osc[0].out = 0xBFD779DCF3800000 := by
  decide +kernel

theorem test_oscPhaseReset :
    let o : OscState := ⟨fHalf, f1, true, 5, #v[f1, f1, f1, f1], f1⟩
    o.phaseReset = ⟨f0, f1, true, 5, #v[f0, f0, f0, f0], f1⟩ := by
  decide +kernel

/-- Comb, COMB_TIME 2/48000, COMB_DAMP 1, COMB_FB -0.5: the third sample of an impulse. -/
theorem test_filtProc_comb :
    let s := withFilt (fun p =>
      { p with ctrl := ⟨.comb, .lp, false, 0⟩, combTime := 0x3F05D867C3ECE2A5, combDamp := f1, combFb := decNeg 5 1 }) base
    let t := filtStep refParams f0 { s with filt := { s.filt with cline := [(0, f1)], cw := 2 } }
    t.filt.out = 0xBFE0000000000000 ∧ t.filt.cw = 3 ∧ t.filt.cline = [(0, f1), (2, 0xBFE0000000000000)] := by
  decide +kernel

/-- Comb with FOVS 1, COMB_DAMP 1: the first output is 0.75. -/
theorem test_filtProc_oversampled :
    let s := withFilt (fun p =>
      { p with ctrl := ⟨.comb, .lp, false, 1⟩, combTime := 0x3F05D867C3ECE2A5, combDamp := f1 }) base
    (filtStep refParams f1 s).filt.out = 0x3FE8000000000000 ∧ (filtStep refParams f1 s).filt.cw = 2 := by
  decide +kernel

/-- DELAY, DTIME 2/48000, at reset mix: the third sample of an impulse. -/
theorem test_dlyProc_delay :
    let s := withDly (fun p => { p with dtime := 0x3F05D867C3ECE2A5 }) base
    let t := dlyStep refParams f0 f0 { s with dly := { s.dly with bufL := [(0, f1)], dw := 2 } }
    t.dly.outL = fHalf ∧ t.dly.outR = f0 ∧ t.dly.lenL = f2 ∧ t.dly.dw = 3 := by
  decide +kernel

/-- The same with PINGPONG: the left echo enters the right line. -/
theorem test_dlyProc_pingPong :
    let s := withDly (fun p => { p with dtime := 0x3F05D867C3ECE2A5, ctrl := ⟨.delay, true, false, .quarter⟩ }) base
    let t := dlyStep refParams f0 f0 { s with dly := { s.dly with bufL := [(0, f1)], dw := 2 } }
    t.dly.bufL = [(0, f1)] ∧ t.dly.bufR = [(2, 0x3FD3333333333333)] := by
  decide +kernel

/-- FIR, coefficients 0.5, 0.25 and -1.0, inputs 1 and -1: the first outputs. -/
theorem test_efxProc_fir :
    let s := withEfx (fun p => { p with ctrl := ⟨.fir, .lp⟩, firLenL := 2 }) base
    let t := efxStep refParams f1 fNeg1
      { s with efx := { s.efx with hL := [(0, fHalf), (1, 0x3FD0000000000000)], hR := [(0, fNeg1)] } }
    t.efx.outL = fHalf ∧ t.efx.outR = f1 ∧ t.efx.histL = [(0, f1)] ∧ t.efx.hw = 1 := by
  decide +kernel

/-- `REV_DECAY = 0.0001`, `REV_DAMP = 0`: the four taps of the left channel. -/
theorem test_irGen :
    impulseResponse refParams (dec 1 4) f0 0xBB67AE85 =
      [(0, 0x3FC852121E000000), (1, 0x3FBB2B2990C00000), (2, 0xBFC7FD723A000000), (3, 0x3F9DE4C4F6000000)] := by
  decide +kernel

theorem test_vowelLoad :
    (loadVowel refParams .u base).shadowP.filt.formant[2].freq = ofInt 3000 ∧
      (loadVowel refParams .u base).activeP = base.activeP := by
  decide +kernel

/-- CUTOFF 5.0 is clamped to 20.0 in the shadow copy. -/
theorem test_csrWrite_clamps :
    (csrWrite refParams 0x201 0x4014000000000000 base).shadowP.filt.cutoff = 0x4034000000000000 ∧
      (csrWrite refParams 0x201 0x4014000000000000 base).activeP = base.activeP := by
  decide +kernel

/-- OSC_CTRL.0 with BL 3 is refused whole. -/
theorem test_csrWrite_refuses : csrWrite refParams 0x100 0x7F base = { base with status := 0x401 } := by decide +kernel

theorem test_csrRead_id : exec (.csrRead 0x000) base = .next { base with port := ⟨[], [0x5355423030330007]⟩ } := rfl

theorem test_csrRead_reserved :
    csrRead refParams 0x500 base = { base with status := 0x201, port := ⟨[], [0]⟩ } := by decide +kernel

/-! ### Witnesses: a state and operands that meet the hypotheses of each statement -/

theorem maxDly_pos : 0 < theParams.maxDly := Nat.lt_of_lt_of_le (by decide) (Nat.le_max_left 4 _)
theorem maxComb_pos : 0 < theParams.maxComb := Nat.lt_of_lt_of_le (by decide) (Nat.le_max_left 2 _)
theorem maxFir_pos : 0 < theParams.maxFir := one_le_maxFir

theorem base_memories : base.MemoriesOk theParams :=
  ⟨fun sp => by cases sp <;> rfl, maxComb_pos, maxDly_pos, maxFir_pos⟩

theorem baseBank_inRange : baseBank.InRange theParams := by
  intro r
  have hl : (1 : Word).toInt = 1 := by decide
  have hf : (1 : Int) ≤ theParams.maxFir := by exact_mod_cast one_le_maxFir
  cases r with
  | efx r =>
    cases r
    case firLenL => exact ⟨hl.ge, hl.le.trans hf⟩
    case firLenR => exact ⟨hl.ge, hl.le.trans hf⟩
    all_goals simp only [RegKind.Admits, PReg.kind, EfxReg.kind, f64Range]; decide +kernel
  | ctrl => simp only [RegKind.Admits, PReg.kind]; decide +kernel
  | bpm => simp only [RegKind.Admits, PReg.kind, f64Range]; decide +kernel
  | osc c r => cases r <;> simp only [RegKind.Admits, PReg.kind, OscReg.kind, f64Range] <;> decide +revert +kernel
  | filt r => cases r <;> simp only [RegKind.Admits, PReg.kind, FiltReg.kind, f64Range] <;> decide +revert +kernel
  | dly r => cases r <;> simp only [RegKind.Admits, PReg.kind, DlyReg.kind, f64Range] <;> decide +kernel

theorem baseM_inRange : MBank.InRange base.shadowM := by
  intro r
  cases r <;> simp only [RegKind.Admits, MReg.kind, f64Range] <;> decide +revert +kernel

theorem base_parameters : base.ParametersOk theParams := ⟨baseBank_inRange, baseBank_inRange, baseM_inRange, baseM_inRange⟩

theorem base_fields : base.FieldsOk := ⟨.inl rfl, by decide⟩

theorem base_noise : base.NoiseOk := by constructor <;> decide +kernel

theorem base_phases : base.PhasesOk := by constructor <;> simp only [IsPhase] <;> decide +kernel

theorem base_ok : State.Ok theParams base := ⟨base_parameters, base_memories, base_fields, base_noise, base_phases⟩

/-- `base` with one pending transaction. -/
def sending (w : BitVec 32) (v : Word) (s : State) : State := { s with port := ⟨[⟨w, v⟩], []⟩ }

theorem witness_DecodeEncode :
    (Instr.oscPhaseReset 3).wellFormed = true ∧ decode ⟨0x10000FFF, 7⟩ = .command (.csrWrite 0xFFF 7) ∧
      opField 0x10000FFF#32 = 0x10#8 := by decide

/-- One word for each disjunct, at the first value that is illegal. -/
theorem witness_IllegalWords :
    (sending 0x07000000 0 base).port.pending = [⟨0x07000000, 0⟩] ∧
    [0x0F000000#32, 0x12000000, 0x00001000, 0x05700000, 0x08400000, 0x09400000, 0x0E500000, 0x11100000, 0x01000001].all
      (fun w => match decode ⟨w, 0⟩ with | .illegal _ => true | .command _ => false) = true := ⟨rfl, by decide⟩

theorem witness_StepRunsDecoded :
    (sending 0x01000000 0 base).port.pending = [⟨0x01000000, 0⟩] ∧ decode ⟨0x01000000, 0⟩ = .command .tick :=
  ⟨rfl, by decide⟩

theorem witness_NopHasNoEffect : (0x00000001#32).extractLsb' 24 8 = 0#8 ∧ (0x00000001#32) ≠ 0 := by decide

theorem witness_Publication :
    feq base.shadowP.efx.revDecay base.efx.irDecayGen = true ∧
      feq (withEfx (fun p => { p with revDecay := f2 }) base).shadowP.efx.revDecay base.efx.irDecayGen = false := by
  decide +kernel

theorem witness_ResetRegisters : (0x009#12, 0x405E000000000000#64) ∈ resetWords ∧
    (0x001#12, 0x407B800000000000#64) ∈ resetOscWords := by decide

theorem witness_StatusChangesOnly :
    (Instr.csrWrite 0x000 5).wellFormed = true ∧ exec (.csrWrite 0x000 5) base = .next { base with status := 0x301 } :=
  ⟨rfl, rfl⟩

theorem witness_RegisterMap : regAt 0x1C0 = some (.p (.osc 3 .oscCtrl)) ∧ regAt 0x422 = some (.r .hwIdx) ∧
    regAt 0x423 = none := by decide

/-- Both ends of the range table: a register with `MAXFIR` in its range, a modulation input, and the last of channel 3. -/
theorem witness_WriteRefusedOrClamped_ranges :
    (0x40C#12, RegKind.i64 1 theParams.maxFir) ∈ rangeWords theParams.maxFir ∧
      (0x00A#12, RegKind.f64 f0 f1) ∈ rangeWords theParams.maxFir ∧ (0x016#12, RegKind.seed) ∈ oscRangeWords ∧
      oscIndex 3 0x016 = 0x1D6 ∧ regAt 0x1D6 = some (.p (.osc 3 .noiseSeed)) ∧ regAt 0x1D4 = some (.m (.modIn 3)) := by
  refine ⟨by simp [rangeWords], by simp [rangeWords], ?_⟩
  decide

/-- Every kind of register with a value refused or taken at an end of its range. -/
theorem witness_WriteRefusedOrClamped :
    ((PReg.filt .cutoff).kind theParams = f64Range 20 20000 ∧
      writeValue (f64Range 20 20000) 0x4034000000000000 = some 0x4034000000000000 ∧
      writeValue (f64Range 20 20000) 0x7FF8000000000000 = none) ∧
    ((PReg.osc 0 .oct).kind theParams = .i64 (-3) 3 ∧ writeValue (.i64 (-3) 3) 3 = some 3 ∧
      writeValue (.i64 (-3) 3) 4 = some 3) ∧
    ((PReg.dly .dnoiseSeed).kind theParams = .seed ∧ writeValue .seed 0x100000000 = none ∧
      writeValue .seed 0x100000001 = some 1) ∧
    (PReg.ctrl.kind theParams = .ctrl ∧ writeValue .ctrl 0x20 = some 0) ∧
    ((PReg.osc 3 .oscCtrl).kind theParams = .oscCtrl ∧ writeValue .oscCtrl 0x10 = none ∧ writeValue .oscCtrl 0x60 = none ∧
      writeValue .oscCtrl 0x4F = some 0x4F) ∧
    ((PReg.filt .filtCtrl).kind theParams = .filtCtrl ∧ writeValue .filtCtrl 6 = none ∧ writeValue .filtCtrl 5 = some 5) ∧
    ((PReg.dly .dlyCtrl).kind theParams = .dlyCtrl ∧ writeValue .dlyCtrl 5 = none ∧ writeValue .dlyCtrl 0x140 = none ∧
      writeValue .dlyCtrl 0x124 = some 0x124) ∧
    ((PReg.efx .efxCtrl).kind theParams = .efxCtrl ∧ writeValue .efxCtrl 3 = none ∧ writeValue .efxCtrl 2 = some 2) ∧
    (MReg.amp.kind = f64Range 0 1 ∧ writeValue (f64Range 0 1) 0x4000000000000000 = some f1) := by
  refine ⟨⟨rfl, ?_⟩, ⟨rfl, ?_⟩, ⟨rfl, ?_⟩, ⟨rfl, ?_⟩, ⟨rfl, ?_⟩, ⟨rfl, ?_⟩, ⟨rfl, ?_⟩, ⟨rfl, ?_⟩, rfl, ?_⟩ <;> decide +kernel

theorem witness_WriteShadowRegister :
    (regAt 0x201 = some (.p (.filt .cutoff)) ∧
      writeValue ((PReg.filt .cutoff).kind theParams) 0x4014000000000000 = some 0x4034000000000000) ∧
    (regAt 0x00A = some (.m .amp) ∧ writeValue MReg.amp.kind 0x4000000000000000 = some f1) := by
  refine ⟨⟨by decide, ?_⟩, by decide, ?_⟩
  · show writeValue (f64Range 20 20000) _ = _
    decide +kernel
  · decide +kernel

theorem witness_WriteTurnedAway :
    regAt 0x500 = none ∧ regAt 0x010 = some (.r .status) ∧
    (regAt 0x202 = some (.p (.filt .res)) ∧ writeValue ((PReg.filt .res).kind theParams) 0x7FF8000000000000 = none) ∧
    (regAt 0x00A = some (.m .amp) ∧ writeValue MReg.amp.kind 0xFFF8000000000000 = none) := by
  refine ⟨by decide, by decide, ⟨by decide, ?_⟩, by decide, ?_⟩
  · show writeValue (f64Range 0 1) _ = _
    decide +kernel
  · decide +kernel

theorem witness_FirWindow_inside : base.MemoriesOk theParams ∧ base.firAddr.toNat % 2 ^ 32 < theParams.maxFir :=
  ⟨base_memories, maxFir_pos⟩

/-- Outside the memory, at the first such index, wherever an index of 32 bits reaches it. -/
theorem witness_FirWindow_outside (h : theParams.maxFir < 2 ^ 32) :
    ({ base with firAddr := BitVec.ofNat 64 theParams.maxFir } : State).MemoriesOk theParams ∧
      theParams.maxFir ≤ (BitVec.ofNat 64 theParams.maxFir).toNat % 2 ^ 32 := by
  refine ⟨⟨base_memories.mem, base_memories.cw, base_memories.dw, base_memories.hw⟩, ?_⟩
  rw [BitVec.toNat_ofNat, Nat.mod_eq_of_lt (h.trans (by decide)), Nat.mod_eq_of_lt h]

theorem witness_ReadRegister : regAt 0x201 = some (.p (.filt .cutoff)) ∧ regAt 0x1D4 = some (.m (.modIn 3)) ∧
    regAt 0xFFF = none ∧ base.dly.dw < 2 ^ 64 ∧ base.efx.hw < 2 ^ 64 := by decide +kernel

theorem witness_ReadIdempotent : regAt 0x010 ≠ none ∧ regAt 0x010 ≠ some (.d .firData) := by decide

theorem witness_OscPhaseReset : 4 ≤ (4 : Fin 16).val := by decide

theorem witness_VowelLoad : 5 ≤ (5 : Fin 16).val := by decide

theorem witness_OscStepDisabled : base.activeP.osc[(2 : Chan)].ctrl.en = false := rfl

/-- `base` with channel 1 enabled. -/
def playing (w : Wave) (sync ring : Bool) : State :=
  withOsc 1 (fun p => { p with ctrl := ⟨true, w, .polyBlep, 0, sync, ring, 0⟩ }) base

/-- An enabled channel with every waveform, oversampled, synced and ring-modulated or not; the saw of the last clause. -/
theorem witness_OscStepWaveforms :
    (∀ (w : Wave) (sync ring : Bool), (playing w sync ring).activeP.osc[(1 : Chan)].ctrl.en = true) ∧
    (∀ (w : Wave) (bl : BandLimit) (ovs : Fin 4),
      (withOsc 0 (fun p => { p with ctrl := ⟨true, w, bl, ovs, false, false, 0⟩ }) base).activeP.osc[(0 : Chan)].ctrl.en =
        true) ∧
    (let s := { playing .saw true true with osc := base.osc.set 0 ⟨fHalf, f1, true, 5, #v[f0, f0, f0, f0], f0⟩ }
    s.activeP.osc[(1 : Chan)].ctrl.sync = true ∧ s.osc[(0 : Chan)].wrap = true ∧
      s.activeP.osc[(1 : Chan)].ctrl.ring = true) ∧
    let q := (playing .saw false false).activeP.osc[(1 : Chan)]
    q.ctrl.en = true ∧ q.ctrl.wave = .saw ∧ q.ctrl.bl = .polyBlep ∧ q.ctrl.ovs = 0 ∧ q.ctrl.sync = false ∧
      q.ctrl.ring = false :=
  ⟨fun _ _ _ => rfl, fun _ _ _ => rfl, ⟨rfl, rfl, rfl⟩, rfl, rfl, rfl, rfl, rfl, rfl⟩

theorem witness_NoiseChannel :
    (1#32) ≠ 0 ∧
    let q := (playing .noise false false).activeP.osc[(1 : Chan)]
    q.ctrl.en = true ∧ q.ctrl.wave = .noise ∧ q.ctrl.ovs = 0 ∧ q.ctrl.ring = false ∧ q.ctrl.sync = false :=
  ⟨by decide, rfl, rfl, rfl, rfl, rfl⟩

/-- Channel 2 where channels 0 and 3 and the inputs differ. -/
theorem witness_OscStepDependsOn :
    let s := playing .fm true true
    let u := { withOsc 3 (fun p => { p with gain := f0 }) s with osc := s.osc.set 0 ⟨fHalf, f1, true, 5, #v[f0, f0, f0, f0], f0⟩, inL := f1 }
    s.activeP.osc[(2 : Chan)] = u.activeP.osc[(2 : Chan)] ∧ s.activeM.modIn[(2 : Chan)] = u.activeM.modIn[(2 : Chan)] ∧
      s.osc[(2 : Chan)] = u.osc[(2 : Chan)] ∧
      (∀ d : Chan, d.val + 1 = (2 : Chan).val → s.osc[d].wrap = u.osc[d].wrap ∧ s.osc[d].out = u.osc[d].out) := by
  decide +kernel

theorem witness_SyncAndRing_wrap :
    let s := { playing .saw true true with osc := base.osc.set 0 ⟨fHalf, f1, true, 5, #v[f0, f0, f0, f0], f0⟩ }
    (0 : Chan).val + 1 = (1 : Chan).val ∧ s.activeP.osc[(1 : Chan)].ctrl.en = true ∧
      s.activeP.osc[(1 : Chan)].ctrl.sync = true ∧ s.osc[(0 : Chan)].wrap = true ∧
      s.activeP.osc[(1 : Chan)].ctrl.ring = true := by
  decide +kernel

theorem witness_SyncAndRing_noWrap :
    ∀ d : Chan, d.val + 1 = (1 : Chan).val → (playing .saw true true).osc[d].wrap = false := by decide +kernel

/-- Channel 0 with `SYNC` and `RING` set: it has no channel before it. -/
theorem witness_SyncAndRing_first :
    let s := withOsc 0 (fun p => { p with ctrl := ⟨true, .saw, .polyBlep, 0, true, true, 0⟩ }) base
    s.activeP.osc[(0 : Chan)].ctrl.en = true ∧ s.activeP.osc[(0 : Chan)].ctrl.ring = true ∧
      (∀ d : Chan, d.val + 1 = (0 : Chan).val → s.osc[d].wrap = false) := ⟨rfl, rfl, fun d h => absurd h (by simp)⟩

theorem witness_PolyBlepRange :
    IsPhase 0x3FEFFFFFFFFFFFFF ∧ inRange (dec 1 2) (dec 99 2) (dec 99 2) = true ∧
      IsPhase f0 ∧ inRange (dec 1 2) (dec 99 2) (dec 1 2) = true := by
  simp only [IsPhase]; decide +kernel

/-- `base` with the filter's topology and resonance set. -/
def filtering (t : Topology) (res : F64) : State := withFilt (fun p => { p with ctrl := ⟨t, .lp, false, 0⟩, res := res }) base

theorem memories_of_filtering (t : Topology) (res : F64) : (filtering t res).MemoriesOk theParams :=
  ⟨base_memories.mem, base_memories.cw, base_memories.dw, base_memories.hw⟩

theorem witness_FiltProcFrame :
    (filtering .comb f0).MemoriesOk theParams ∧ (filtering .comb f0).activeP.filt.ctrl.topo = .comb ∧
      (filtering .multi f0).MemoriesOk theParams ∧ (filtering .multi f0).activeP.filt.ctrl.topo ≠ .comb ∧
      0 < 2 ^ (filtering .comb f0).activeP.filt.ctrl.fovs.val :=
  ⟨memories_of_filtering .., rfl, memories_of_filtering .., by decide +kernel, by decide +kernel⟩

theorem witness_CombFilter :
    (filtering .comb f0).MemoriesOk theParams ∧ (filtering .comb f0).activeP.filt.ctrl.topo = .comb ∧
      (filtering .comb f0).activeP.filt.ctrl.fovs = 0 := ⟨memories_of_filtering .., rfl, rfl⟩

/-- The 1-pole form of MULTI. -/
def onePoling : State := withFilt (fun p => { p with ctrl := ⟨.multi, .hp, true, 0⟩ }) base

theorem onePoling_form : OnePoleForm onePoling.activeP.filt := ⟨rfl, rfl, .inr rfl⟩

theorem not_onePole_base (t : Topology) (res : F64) : ¬OnePoleForm (filtering t res).activeP.filt :=
  fun h => nomatch h.2.1

/-- One state for each form of the coefficient reads. -/
theorem witness_BiquadFilters_reads :
    (filtering .svf f1).activeP.filt.ctrl.topo = .svf ∧
    ((filtering .multi f0).activeP.filt.ctrl.topo = .multi ∧ ¬OnePoleForm (filtering .multi f0).activeP.filt) ∧
    (filtering .sallenKey f1).activeP.filt.ctrl.topo = .sallenKey ∧
    (∀ t ∈ [Topology.ladder, .comb, .formant], (filtering t f0).activeP.filt.ctrl.topo = t) ∧
    OnePoleForm onePoling.activeP.filt :=
  ⟨rfl, ⟨rfl, not_onePole_base _ _⟩, rfl, fun _ _ => rfl, onePoling_form⟩

theorem witness_BiquadFilters_filter :
    let s := filtering .svf f0
    let b := filtTuple theParams s.activeP.filt s.activeM
    s.activeP.filt.ctrl.topo ∈ [.multi, .sallenKey, .svf] ∧ ¬OnePoleForm s.activeP.filt ∧
      s.activeP.filt.ctrl.fovs = 0 ∧
      exec (.csrRead 0x222) s = .next { s with port := { s.port with responses := s.port.responses ++ [b.b0] } } ∧
      exec (.csrRead 0x223) s = .next { s with port := { s.port with responses := s.port.responses ++ [b.b1] } } ∧
      exec (.csrRead 0x224) s = .next { s with port := { s.port with responses := s.port.responses ++ [b.b2] } } ∧
      exec (.csrRead 0x225) s = .next { s with port := { s.port with responses := s.port.responses ++ [b.a1] } } ∧
      exec (.csrRead 0x226) s = .next { s with port := { s.port with responses := s.port.responses ++ [b.a2] } } :=
  ⟨by decide +kernel, not_onePole_base _ _, rfl, rfl, rfl, rfl, rfl, rfl⟩

theorem witness_BiquadFilters_tone :
    let b := toneCoefs theParams base.activeP.efx
    base.activeP.efx.ctrl.mode = .biquad ∧
      exec (.csrRead 0x41C) base = .next { base with port := { base.port with responses := base.port.responses ++ [b.b0] } } ∧
      exec (.csrRead 0x41D) base = .next { base with port := { base.port with responses := base.port.responses ++ [b.b1] } } ∧
      exec (.csrRead 0x41E) base = .next { base with port := { base.port with responses := base.port.responses ++ [b.b2] } } ∧
      exec (.csrRead 0x41F) base = .next { base with port := { base.port with responses := base.port.responses ++ [b.a1] } } ∧
      exec (.csrRead 0x420) base = .next { base with port := { base.port with responses := base.port.responses ++ [b.a2] } } :=
  ⟨rfl, rfl, rfl, rfl, rfl, rfl⟩

theorem witness_FilterStep :
    (filtering .ladder f1).activeP.filt.ctrl.topo = .ladder ∧
      flt 0x3FEE666666666666 (filtering .ladder f1).activeP.filt.res = true :=
  ⟨rfl, by decide +kernel⟩

theorem witness_EffectiveCutoff :
    base.ParametersOk theParams ∧ (filtering .ladder f0).activeP.filt.ctrl.topo = .ladder ∧
      OnePoleForm onePoling.activeP.filt ∧
      ((filtering .comb f0).activeP.filt.ctrl.topo ≠ .ladder ∧ ¬OnePoleForm (filtering .comb f0).activeP.filt) :=
  ⟨base_parameters, rfl, onePoling_form, by decide +kernel, not_onePole_base _ _⟩

theorem witness_DlyProcFrame : base.MemoriesOk theParams := base_memories

/-- `base` with the delay-line mode, `PINGPONG` and `ANALOG_EN` set. -/
def delaying (m : DelayMode) (pingPong analog : Bool) : State :=
  withP (fun b => { b with ctrl := ⟨false, false, false, false, analog⟩ })
    (withDly (fun p => { p with ctrl := ⟨m, pingPong, false, .quarter⟩ }) base)

theorem memories_of_delaying (m : DelayMode) (pingPong analog : Bool) :
    (delaying m pingPong analog).MemoriesOk theParams :=
  ⟨base_memories.mem, base_memories.cw, base_memories.dw, base_memories.hw⟩

/-- Every mode with every routing, with and without analog modelling. -/
theorem witness_DelayModes (m : DelayMode) (pingPong analog : Bool) :
    let s := delaying m pingPong analog
    s.MemoriesOk theParams ∧ s.activeP.dly.ctrl.mode = m ∧ s.activeP.dly.ctrl.pingPong = pingPong ∧
      s.activeP.ctrl.analogEn = analog := ⟨memories_of_delaying .., rfl, rfl, rfl⟩

/-- Without analog modelling in the three modes that have it, and with it in DELAY. -/
theorem witness_AnalogOff :
    (∀ m ∈ [DelayMode.bbdDelay, .bbdChorus, .tape],
      let s := delaying m true false
      s.MemoriesOk theParams ∧ s.activeP.ctrl.analogEn = false ∧ s.activeP.dly.ctrl.mode = m) ∧
      (base.activeP.ctrl.analogEn = true ∧ base.activeP.dly.ctrl.mode ∉ [.bbdDelay, .bbdChorus]) :=
  ⟨fun _ _ => ⟨memories_of_delaying .., rfl, rfl⟩, rfl, by decide +kernel⟩

/-- `base` with the effect filter's mode set. -/
def effecting (m : EffectMode) : State := withEfx (fun p => { p with ctrl := ⟨m, .lp⟩ }) base

theorem memories_of_effecting (m : EffectMode) : (effecting m).MemoriesOk theParams :=
  ⟨base_memories.mem, base_memories.cw, base_memories.dw, base_memories.hw⟩

theorem witness_EfxProcFrame :
    (effecting .fir).MemoriesOk theParams ∧ (effecting .fir).activeP.efx.ctrl.mode = .fir ∧
      (effecting .phaser).MemoriesOk theParams ∧ (effecting .phaser).activeP.efx.ctrl.mode = .phaser :=
  ⟨memories_of_effecting .., rfl, memories_of_effecting .., rfl⟩

theorem witness_FirConvolution : (effecting .fir).MemoriesOk theParams ∧ (effecting .fir).activeP.efx.ctrl.mode = .fir :=
  ⟨memories_of_effecting .., rfl⟩

/-- A coefficient at the FIR length is changed, none below it. -/
theorem witness_FirUnusedCoefficients :
    (∀ i : Nat, (i : Int) < (effecting .fir).activeP.efx.firLenL.toInt →
      memRead [(1, f2)] i = (effecting .fir).element .hL i) ∧
    memRead [(1, f2)] 1 ≠ (effecting .fir).element .hL 1 := by
  refine ⟨fun i hi => ?_, by decide +kernel⟩
  have h1 : (effecting .fir).activeP.efx.firLenL.toInt = 1 := by decide +kernel
  have h0 : i = 0 := by omega
  subst h0
  decide +kernel

/-- PH_STAGES is 4 at reset: stage index 4 is the first that does not run. -/
theorem witness_Phaser :
    (effecting .phaser).activeP.efx.ctrl.mode = .phaser ∧ (effecting .phaser).activeP.efx.phStages.toInt ≤ (4 : Fin 12).val :=
  ⟨rfl, by decide +kernel⟩

theorem witness_TickCount : exec .nop base = .next base := rfl

theorem witness_TickFrame :
    base.MemoriesOk theParams ∧ base.activeP.osc[(0 : Chan)].ctrl.en = false ∧ base.activeP.ctrl.filtEn = false ∧
      base.activeP.ctrl.dlyEn = false ∧ base.activeP.ctrl.efxEn = false := ⟨base_memories, rfl, rfl, rfl, rfl⟩

theorem witness_TickSilence :
    (∀ c : Chan, base.activeP.osc[c].ctrl.en = false) ∧ base.activeP.ctrl.filtEn = false ∧
      base.activeP.ctrl.dlyEn = false ∧ base.activeP.ctrl.efxEn = false := by decide +kernel

/-- An uncommitted write and other inputs. -/
theorem witness_SoundReadsActiveCopies :
    let u := { base with shadowP := { baseBank with bpm := f1 }, firAddr := 3, status := 0x401 }
    base.sound = u.sound ∧ base.filtIn = u.filtIn ∧ base.inL = u.inL ∧ base.inR = u.inR := ⟨rfl, rfl, rfl, rfl⟩

theorem witness_Idempotent :
    Instr.clrErr ∈ [Instr.commit, .modtick, .softReset, .clrErr] ∧ (Instr.resetUnit 6).wellFormed = true ∧
      (Instr.oscPhaseReset 3).wellFormed = true := by decide

/-- A step from a state in order: `CLR_ERR` taken from the port. -/
theorem witness_MemoriesKept :
    (sending 0x06000000 0 base).MemoriesOk theParams ∧ step (sending 0x06000000 0 base) = .next base :=
  ⟨⟨base_memories.mem, base_memories.cw, base_memories.dw, base_memories.hw⟩, rfl⟩

theorem witness_FieldsAndNoiseKept :
    step (sending 0x06000000 0 base) = .next base ∧ base.FieldsOk ∧ base.NoiseOk := ⟨rfl, base_fields, base_noise⟩

theorem witness_ParametersKept :
    (sending 0x06000000 0 base).ParametersOk theParams ∧ step (sending 0x06000000 0 base) = .next base :=
  ⟨⟨base_parameters.shadowP, base_parameters.activeP, base_parameters.shadowM, base_parameters.activeM⟩, rfl⟩

theorem witness_PhasesKept :
    (sending 0x06000000 0 base).ParametersOk theParams ∧ (sending 0x06000000 0 base).PhasesOk ∧
      step (sending 0x06000000 0 base) = .next base :=
  ⟨witness_ParametersKept.1, ⟨base_phases.phase, base_phases.opPhase, base_phases.lfoL, base_phases.lfoR,
    base_phases.phWow, base_phases.phFlut, base_phases.phLfo⟩, rfl⟩

theorem witness_SafeRun : State.Ok theParams base := base_ok

theorem witness_ArithmeticRounds : isFinite 0x7FEFFFFFFFFFFFFF = true ∧ isFinite 0x8000000000000001 = true := by decide

theorem witness_DivisionRounds :
    isFinite f1 = true ∧ isZero 0x0000000000000001 = false ∧ isZero 0x8000000000000000 = true ∧ isZero f1 = false := by
  decide

theorem witness_HelperFunctions : isFinite 0x8000000000000000 = true ∧ (2 ^ 53 - 1 : Int).natAbs < 2 ^ 53 := by decide

end Sys2Proof.Machine.Tests
end

/-! PROOFS. `TICK_COUNT`: what each operation does to it, and from that what each command does (10_state.md R36). -/

namespace Sys2Proof.Machine

/-! ### Shared operations -/

@[simp] theorem failRead_tickCount (e : Err) (s : State) : (failRead e s).tickCount = s.tickCount := rfl

@[simp] theorem commitState_tickCount (P : Params) (s : State) : (commitState P s).tickCount = s.tickCount := by
  obtain ⟨-, h⟩ | ⟨-, h⟩ := commitState_cases P s <;> simp [h]

@[simp] theorem resetUnitState_tickCount (u : UnitName) (s : State) : (resetUnitState u s).tickCount = s.tickCount := by
  obtain ⟨c, -, h⟩ | ⟨-, h⟩ | ⟨-, h⟩ | ⟨-, h⟩ := resetUnitState_cases u s <;> simp [h]

/-! ### Register access -/

@[simp] theorem writeD_tickCount (P : Params) (r : DReg) (v : Word) (s : State) :
    (writeD P r v s).tickCount = s.tickCount := by
  cases r
  case firData => simp only [writeD]; split <;> simp
  all_goals rfl

@[simp] theorem writeReg_tickCount (P : Params) (r : Reg) (v : Word) (s : State) :
    (writeReg P r v s).tickCount = s.tickCount := by
  cases r
  case p r => simp only [writeReg]; split <;> rfl
  case m r => simp only [writeReg]; split <;> rfl
  case d r => exact writeD_tickCount P r v s
  case r r => exact raiseErr_tickCount .roWrite s

@[simp] theorem csrWrite_tickCount (P : Params) (addr : BitVec 12) (v : Word) (s : State) :
    (csrWrite P addr v s).tickCount = s.tickCount := by
  unfold csrWrite
  split <;> simp

@[simp] theorem csrRead_tickCount (P : Params) (addr : BitVec 12) (s : State) :
    (csrRead P addr s).tickCount = s.tickCount := by
  unfold csrRead
  split
  · simp
  · split <;> simp
  · simp

/-! ### The voice path: only its last assignment counts -/

@[simp] theorem stepOscillators_tickCount (P : Params) (s : State) : (stepOscillators P s).tickCount = s.tickCount := by
  simp [stepOscillators]

@[simp] theorem pathFilter_tickCount (P : Params) (v : F64) (s : State) :
    (pathFilter P v s).s.tickCount = s.tickCount := by
  obtain ⟨-, h⟩ | ⟨-, h⟩ := pathFilter_cases P v s <;> simp [h]

@[simp] theorem pathDelay_tickCount (P : Params) (p : Path) : (pathDelay P p).s.tickCount = p.s.tickCount := by
  obtain ⟨-, h⟩ | ⟨-, h⟩ := pathDelay_cases P p <;> simp [h]

@[simp] theorem pathEffect_tickCount (P : Params) (p : Path) : (pathEffect P p).s.tickCount = p.s.tickCount := by
  obtain ⟨-, h⟩ | ⟨-, h⟩ := pathEffect_cases P p <;> simp [h]

@[simp] theorem pathEffects_tickCount (P : Params) (p : Path) : (pathEffects P p).s.tickCount = p.s.tickCount := by
  unfold pathEffects
  split <;> simp

@[simp] theorem tickState_tickCount (P : Params) (s : State) : (tickState P s).tickCount = s.tickCount + 1 := by
  simp [tickState]

/-! ### Commands -/

theorem exec_tick_tickCount {s t : State} (h : exec .tick s = .next t) : t.tickCount = s.tickCount + 1 := by
  obtain rfl : tickState theParams s = t := Host.Outcome.next.inj h
  exact tickState_tickCount theParams s

theorem exec_softReset_tickCount {s t : State} (h : exec .softReset s = .next t) : t.tickCount = 0 := by
  obtain rfl : softResetState theParams s = t := Host.Outcome.next.inj h
  exact softResetState_tickCount theParams s

/-- A command with a selector performs its unit's operation or records ILLEGAL_CMD; neither counts. -/
theorem exec_tickCount_of_ne {i : Instr} {s t : State} (h : exec i s = .next t) (htick : i ≠ .tick)
    (hreset : i ≠ .softReset) : t.tickCount = s.tickCount := by
  cases i
  case tick => exact absurd rfl htick
  case softReset => exact absurd rfl hreset
  case resetUnit sel | oscStep sel | oscPhaseReset sel | vowelLoad sel =>
    simp only [exec, execResetUnit, execOscStep, execOscPhaseReset, execVowelLoad] at h
    split at h <;> obtain rfl := Host.Outcome.next.inj h <;> simp
  case nop | commit | modtick | clrErr | filtProc | dlyProc | efxProc | irGen | csrWrite | csrRead =>
    obtain rfl := Host.Outcome.next.inj h
    simp

/-- Settles O45, by the command: `TICK`'s path ends in the one increment, and every other operation but the block reset
keeps the counter. -/
theorem tickCount : Obligations.TickCount := by
  intro i s t h
  refine ⟨?_, ?_, exec_tickCount_of_ne h⟩
  · rintro rfl
    exact exec_tick_tickCount h
  · rintro rfl
    exact exec_softReset_tickCount h

end Sys2Proof.Machine

/-! PROOFS. The coefficient window: its address arithmetic, the memory it is on, and from these what `CSR_WRITE` and
`CSR_READ` of `FIR_DATA` do (20_memory.md R83). -/

namespace Sys2Proof.Machine

/-! ### The window's address -/

theorem firIndex_eq (a : Word) : firIndex a = a.toNat % 2 ^ 32 := by simp [firIndex]

/-- The kept high half and the advanced index do not overlap, the index being below `2 ^ 32`. -/
theorem firAdvance_toNat (a : Word) :
    (firAdvance a).toNat = a.toNat / 2 ^ 32 * 2 ^ 32 + (a.toNat % 2 ^ 32 + 1) % 2 ^ 32 := by
  have hhigh : a.toNat / 2 ^ 32 % 2 ^ 32 = a.toNat / 2 ^ 32 := Nat.mod_eq_of_lt (by omega)
  simp only [firAdvance, BitVec.toNat_append, BitVec.toNat_add, BitVec.extractLsb'_toNat, BitVec.toNat_ofNat,
    Nat.shiftRight_eq_div_pow, hhigh, pow_zero, Nat.div_one]
  rw [← Nat.shiftLeft_add_eq_or_of_lt (Nat.mod_lt _ (by decide)), Nat.shiftLeft_eq]

theorem firAdvance_eq (a : Word) :
    firAdvance a = BitVec.ofNat 64 (a.toNat / 2 ^ 32 * 2 ^ 32 + (a.toNat % 2 ^ 32 + 1) % 2 ^ 32) := by
  rw [← firAdvance_toNat, BitVec.ofNat_toNat, BitVec.setWidth_eq]

theorem windowOk_iff (P : Params) (s : State) : windowOk P s = true ↔ s.firAddr.toNat % 2 ^ 32 < P.maxFir := by
  rw [windowOk, decide_eq_true_iff, firIndex_eq]

/-! ### The memory the window is on -/

/-- `H`: the coefficients of the channel that `FIR_ADDR[32]` selects. -/
def windowSpace (s : State) : Space := if firRight s.firAddr then .hR else .hL

theorem windowRead_eq_element (s : State) : windowRead s = s.element (windowSpace s) (firIndex s.firAddr) := by
  unfold windowRead windowSpace
  split <;> rfl

theorem mem_windowWrite (v : Word) (s : State) (sp : Space) :
    (windowWrite v s).mem sp =
      if sp = windowSpace s then memWrite (s.mem sp) (firIndex s.firAddr) v else s.mem sp := by
  unfold windowWrite windowSpace
  split <;> cases sp <;> rfl

@[simp] theorem mem_windowAdvance (s : State) : (windowAdvance s).mem = s.mem := by
  funext sp
  cases sp <;> rfl

@[simp] theorem element_windowAdvance (s : State) (sp : Space) (j : Nat) :
    (windowAdvance s).element sp j = s.element sp j := by
  rw [State.element, mem_windowAdvance, State.element]

theorem element_windowWrite {P : Params} {s : State} (h : s.MemoriesOk P) (v : Word) (sp : Space) (j : Nat) :
    (windowWrite v s).element sp j =
      if sp = windowSpace s ∧ j = firIndex s.firAddr then v else s.element sp j := by
  rw [State.element, mem_windowWrite]
  by_cases hsp : sp = windowSpace s
  · simp only [hsp, if_true, true_and, memRead_memWrite (h.mem _), State.element]
  · simp only [hsp, if_false, false_and, State.element]

/-! ### `CSR_WRITE` and `CSR_READ` of `FIR_DATA` -/

theorem regAt_firData : regAt 0x40E = some (.d .firData) := by decide

theorem exec_csrWrite_firData (v : Word) (s : State) :
    exec (.csrWrite 0x40E v) s =
      .next (if windowOk theParams s then windowAdvance (windowWrite v s) else raiseErr .firRange s) := by
  simp only [exec, execCsrWrite, csrWrite, regAt_firData, writeReg, writeD]

theorem exec_csrRead_firData (s : State) :
    exec (.csrRead 0x40E) s =
      .next (if windowOk theParams s then respond (windowRead s) (windowAdvance s) else failRead .firRange s) := by
  simp only [exec, execCsrRead, csrRead, regAt_firData]

/-- Settles O19, by whether the index is inside the memory: the write is the element's write and the advance, the read
the element's response and the advance; outside, both are the error record, the read with its response of 0. -/
theorem firWindow : Obligations.FirWindow := by
  intro s v hs idx sp advanced status
  have hidx : firIndex s.firAddr = idx := firIndex_eq s.firAddr
  have hadvanced : firAdvance s.firAddr = advanced := firAdvance_eq s.firAddr
  rw [exec_csrWrite_firData, exec_csrRead_firData]
  constructor
  · intro hinside
    have hok : windowOk theParams s = true := (windowOk_iff theParams s).2 hinside
    rw [if_pos hok, if_pos hok]
    refine ⟨⟨windowAdvance (windowWrite v s), rfl, ?_, ?_, ?_⟩, ?_⟩
    · rw [windowAdvance_firAddr, windowWrite_firAddr, hadvanced]
    · intro sp' j
      rw [element_windowAdvance, element_windowWrite hs, hidx]
      rfl
    · rw [windowWrite_eq, windowWrite_efx]
      rfl
    · rw [windowRead_eq_element, hidx, ← hadvanced]
      rfl
  · intro houtside
    have hok : ¬ windowOk theParams s = true := fun h => Nat.not_lt.2 houtside ((windowOk_iff theParams s).1 h)
    rw [if_neg hok, if_neg hok, raiseErr_eq, failRead_eq]
    exact ⟨rfl, rfl⟩

end Sys2Proof.Machine

/-! PROOFS. Decoding a word put together from its fields, the decoding of every command's word from it, and the worked
encodings as instances (30_encoding.md R100, R101, R114). -/

namespace Sys2Proof.Machine

/-! ### The decoder on a word put together from its fields -/

theorem decode_commandWord (op : BitVec 8) (sel : BitVec 4) (addr : BitVec 12) (v : Word) :
    decode ⟨commandWord op sel addr, v⟩ =
      if op = 0x10#8 then needSel (.csrWrite addr v) (sel == 0)
      else if op = 0x11#8 then needSel (.csrRead addr) (sel == 0)
      else if addr ≠ 0 then .illegal .address
      else decodeOp op sel := by
  obtain ⟨hop, hsel, hrsv, haddr⟩ := Laws.EncodedFields.of_commandWord op sel addr
  simp only [decode, hop, hsel, hrsv, haddr, ne_eq, not_true_eq_false, if_false]

theorem needSel_of_legal {ok : Bool} (h : ok = true) (i : Instr) : needSel i ok = .command i := if_pos h

/-! ### Every command's word -/

/-- Only `CSR_WRITE` reads the data beat (R105), so any beat may stand behind the word of another command. -/
theorem decode_of_word_eq {i : Instr} {w : BitVec 32} (v : Word) (hw : (encode i).word = w) (hi : i.wellFormed = true)
    (hbeat : i.opcode = 0x10#8 → i.dataBeat = v) : decode ⟨w, v⟩ = .command i := by
  subst hw
  refine (decode_commandWord i.opcode i.selector i.address v).trans ?_
  cases i
  case csrWrite addr data =>
    obtain rfl : data = v := hbeat rfl
    rfl
  case resetUnit sel | oscStep sel | oscPhaseReset sel | vowelLoad sel => exact needSel_of_legal hi _
  case nop | tick | commit | modtick | softReset | clrErr | filtProc | dlyProc | efxProc | irGen | csrRead => rfl

/-- A command that is not `CSR_WRITE`, behind whose word any beat may stand. -/
theorem decode_of_word_eq_noBeat {i : Instr} {w : BitVec 32} (v : Word) (hw : (encode i).word = w)
    (hi : i.wellFormed = true) (hop : i.opcode ≠ 0x10#8) : decode ⟨w, v⟩ = .command i :=
  decode_of_word_eq v hw hi fun h => absurd h hop

/-! ### The worked encodings -/

/-- Settles O2, word by word: each is the word R100 and R101 give its command. -/
theorem workedEncodings : Obligations.WorkedEncodings := by
  intro v
  refine ⟨?tick, ?resetUnit, ?oscStep, ?vowelLoad, ?csrRead, ?response, ?csrWrite, ?nop, ?commit, ?modtick, ?softReset,
    ?clrErr, ?oscPhaseReset, ?filtProc, ?dlyProc, ?efxProc, ?irGen⟩
  case response => rfl
  case csrWrite => exact decode_of_word_eq _ rfl rfl fun _ => rfl
  all_goals exact decode_of_word_eq_noBeat v rfl rfl (by decide)

end Sys2Proof.Machine

/-! PROOFS. `NOP`: its word, and that a field that is not 0 makes a word of opcode 0 illegal (40_host_commands.md R131). -/

namespace Sys2Proof.Machine

/-! ### `NOP` and its illegal neighbours -/

/-- With `RSV` 0 the other three fields are all of a word. -/
theorem commandWord_fields {w : BitVec 32} (hrsv : rsvField w = 0) :
    commandWord (opField w) (selField w) (addrField w) = w :=
  calc commandWord (opField w) (selField w) (addrField w)
      = opField w ++ selField w ++ rsvField w ++ addrField w := by rw [hrsv]; rfl
    _ = w.extractLsb' 0 32 := by
      unfold opField selField rsvField addrField
      rw [BitVec.extractLsb'_append_extractLsb'_eq_extractLsb' (by omega),
        BitVec.extractLsb'_append_extractLsb'_eq_extractLsb' (by omega),
        BitVec.extractLsb'_append_extractLsb'_eq_extractLsb' (by omega)]
    _ = w := BitVec.extractLsb'_eq_self

theorem exec_nop (s : State) : exec .nop s = .next s := rfl

/-- Opcode 0 takes no selector and no register index, so each field that is not 0 has its own reason. -/
theorem decode_opcode_zero {w : BitVec 32} (v : Word) (hop : opField w = 0) (hw : w ≠ 0) :
    ∃ why, decode ⟨w, v⟩ = .illegal why := by
  by_cases hrsv : rsvField w = 0
  case neg => exact ⟨.reservedBits, if_pos hrsv⟩
  rw [← commandWord_fields hrsv, hop] at hw ⊢
  rw [decode_commandWord, if_neg (by decide), if_neg (by decide)]
  by_cases haddr : addrField w = 0
  case neg => exact ⟨.address, if_pos haddr⟩
  by_cases hsel : selField w = 0
  case pos => exact absurd (by rw [haddr, hsel]; rfl) hw
  refine ⟨.selector, ?_⟩
  rw [if_neg (not_not_intro haddr)]
  exact if_neg (by simpa using hsel)

/-- Settles O5: the word 0 is `NOP`'s, and any other word of opcode 0 has another field that is not 0. -/
theorem nopHasNoEffect : Obligations.NopHasNoEffect :=
  ⟨fun v => decode_of_word_eq_noBeat v rfl rfl (by decide), exec_nop, fun x hop hw => decode_opcode_zero x.data hop hw⟩

end Sys2Proof.Machine

/-! PROOFS. `RESET_UNIT`: the internal memories after each unit's reset, and from these what the command does
(40_host_commands.md R142 to R144). -/

namespace Sys2Proof.Machine

theorem exec_resetUnit {sel : BitVec 4} {u : UnitName} (h : unitOfSel sel = some u) (s : State) :
    exec (.resetUnit sel) s = .next (resetUnitState u s) := by
  simp only [exec, execResetUnit, h]

/-! ### The internal memories after a unit reset -/

theorem mem_filtReset (s : State) (sp : Space) : (filtReset s).mem sp = if sp = .comb then [] else s.mem sp := by
  cases sp <;> rfl

theorem mem_dlyReset (s : State) (sp : Space) :
    (dlyReset s).mem sp = if sp = .dbufL ∨ sp = .dbufR then [] else s.mem sp := by
  cases sp <;> rfl

theorem mem_efxReset (s : State) (sp : Space) :
    (efxReset s).mem sp = if sp = .histL ∨ sp = .histR then [] else s.mem sp := by
  cases sp <;> rfl

theorem element_of_mem_eq_nil {s : State} {sp : Space} (h : s.mem sp = []) (i : Nat) : s.element sp i = f0 := by
  rw [State.element, h]
  rfl

theorem element_of_mem_eq {s t : State} {sp : Space} (h : t.mem sp = s.mem sp) (i : Nat) :
    t.element sp i = s.element sp i := by
  rw [State.element, h, State.element]

/-! ### `RESET_UNIT` of each unit -/

theorem oscReset_eq (c : Chan) (s : State) :
    oscReset c s =
      { s with
        osc := s.osc.set c
          { phase := f0, out := f0, wrap := false, noise := s.activeP.osc[c].noiseSeed, opPhase := #v[f0, f0, f0, f0],
            fmFb := f0 } } := rfl

/-- Settles O10, unit by unit: each reset is its unit's reset state put in place, and the memories follow from what it
lists. -/
theorem resetUnit : Obligations.ResetUnit := by
  intro s
  refine ⟨fun c => ?osc, ⟨filtReset s, ?filt⟩, ⟨dlyReset s, ?dly⟩, ⟨efxReset s, ?efx⟩⟩
  case osc => exact (exec_resetUnit (unitOfSel_selOf c) s).trans (congrArg _ (oscReset_eq c s))
  case filt =>
    refine ⟨exec_resetUnit (u := .filt) (by decide) s, rfl, rfl, rfl, ?z, rfl, rfl, rfl, ?fq, ?line, rfl, rfl, ?frame⟩
    case z => intro i; exact Vector.getElem_replicate i.isLt
    case fq => intro k; exact Vector.getElem_replicate k.isLt
    case line => exact element_of_mem_eq_nil (mem_filtReset s .comb)
    case frame =>
      intro sp hcomb
      exact element_of_mem_eq ((mem_filtReset s sp).trans (if_neg hcomb))
  case dly =>
    refine ⟨exec_resetUnit (u := .dly) (by decide) s, rfl, ?lines, rfl, rfl, rfl, rfl, rfl, rfl, rfl, rfl, rfl, rfl, rfl,
      rfl, ?frame⟩
    case lines =>
      intro i
      exact ⟨element_of_mem_eq_nil (mem_dlyReset s .dbufL) i, element_of_mem_eq_nil (mem_dlyReset s .dbufR) i⟩
    case frame =>
      intro sp hl hr
      exact element_of_mem_eq ((mem_dlyReset s sp).trans (if_neg (not_or_intro hl hr)))
  case efx =>
    refine ⟨exec_resetUnit (u := .efx) (by decide) s, rfl, rfl, rfl, ?stages, rfl, rfl, rfl, rfl, ?hist, rfl, rfl, rfl,
      rfl, ?frame⟩
    case stages =>
      intro st
      have hzero : (Vector.replicate 12 f0)[st] = f0 := Vector.getElem_replicate st.isLt
      exact ⟨hzero, hzero, hzero, hzero⟩
    case hist =>
      intro i
      exact ⟨element_of_mem_eq_nil (mem_efxReset s .histL) i, element_of_mem_eq_nil (mem_efxReset s .histR) i⟩
    case frame =>
      intro sp hl hr
      exact element_of_mem_eq ((mem_efxReset s sp).trans (if_neg (not_or_intro hl hr)))

end Sys2Proof.Machine

/-! PROOFS. `WriteValue`: for each type which values it refuses and what it takes the others as, and that every register's
range can be clamped into (40_host_commands.md R135, R136). -/

namespace Sys2Proof.Machine

/-! ### The low bits of a written value -/

theorem toNat_and_low {n : Nat} {m : Word} (hm : m.toNat = 2 ^ n - 1) (v : Word) :
    (v &&& m).toNat = v.toNat % 2 ^ n := by
  rw [BitVec.toNat_and, hm, Nat.and_two_pow_sub_one_eq_mod]

theorem bitOf_and_low {n : Nat} {m : Word} (hm : m.toNat = 2 ^ n - 1) (v : Word) {i : Nat} (hi : i < n) :
    bitOf (v &&& m) i = bitOf v i := by
  rw [bitOf, BitVec.getLsbD, toNat_and_low hm, Nat.testBit_mod_two_pow, decide_eq_true hi, Bool.true_and]
  rfl

theorem fieldOf_and_low {n : Nat} {m : Word} (hm : m.toNat = 2 ^ n - 1) (v : Word) {lo width : Nat}
    (h : lo + width ≤ n) : fieldOf (v &&& m) lo width = fieldOf v lo width := by
  rw [fieldOf, toNat_and_low hm]
  refine Nat.eq_of_testBit_eq fun i => ?_
  simp only [fieldOf, Nat.testBit_mod_two_pow, Nat.testBit_div_two_pow]
  by_cases hi : i < width
  · rw [decide_eq_true (show i + lo < n by omega), Bool.true_and]
  · rw [decide_eq_false hi, Bool.false_and, Bool.false_and]

theorem fieldOf_lt (v : Word) (lo width : Nat) : fieldOf v lo width < 2 ^ width := Nat.mod_lt _ (Nat.two_pow_pos width)

/-! ### The reserved codes (10_state.md R40, R45, R48, R52) -/

theorem Wave.ofCode_eq_none_iff (n : Nat) : Wave.ofCode n = none ↔ 8 ≤ n := by
  unfold Wave.ofCode; split <;> grind

theorem BandLimit.ofCode_eq_none_iff (n : Nat) : BandLimit.ofCode n = none ↔ 3 ≤ n := by
  unfold BandLimit.ofCode; split <;> grind

theorem Topology.ofCode_eq_none_iff (n : Nat) : Topology.ofCode n = none ↔ 6 ≤ n := by
  unfold Topology.ofCode; split <;> grind

theorem Response.ofCode_eq_none_iff (n : Nat) : Response.ofCode n = none ↔ 4 ≤ n := by
  unfold Response.ofCode; split <;> grind

theorem DelayMode.ofCode_eq_none_iff (n : Nat) : DelayMode.ofCode n = none ↔ 5 ≤ n := by
  unfold DelayMode.ofCode; split <;> grind

theorem Division.ofCode_eq_none_iff (n : Nat) : Division.ofCode n = none ↔ 10 ≤ n := by
  unfold Division.ofCode; split <;> grind

theorem EffectMode.ofCode_eq_none_iff (n : Nat) : EffectMode.ofCode n = none ↔ 3 ≤ n := by
  unfold EffectMode.ofCode; split <;> grind

/-- No code of a response is reserved. -/
theorem Response.exists_ofCode_fieldOf (v : Word) (lo : Nat) : ∃ r, Response.ofCode (fieldOf v lo 2) = some r := by
  rw [← Option.ne_none_iff_exists', ne_eq, Response.ofCode_eq_none_iff, not_le]
  exact fieldOf_lt v lo 2

/-! ### Which values a field register refuses (40_host_commands.md R136) -/

theorem OscCtrl.ofWord_eq_none_iff (v : Word) :
    OscCtrl.ofWord v = none ↔ 8 ≤ fieldOf v 1 4 ∨ fieldOf v 5 2 = 3 := by
  have hbl := fieldOf_lt v 5 2
  rw [← Wave.ofCode_eq_none_iff, show fieldOf v 5 2 = 3 ↔ 3 ≤ fieldOf v 5 2 by omega, ← BandLimit.ofCode_eq_none_iff]
  unfold OscCtrl.ofWord
  cases Wave.ofCode (fieldOf v 1 4) <;> cases BandLimit.ofCode (fieldOf v 5 2) <;> simp

theorem FiltCtrl.ofWord_eq_none_iff (v : Word) : FiltCtrl.ofWord v = none ↔ 6 ≤ fieldOf v 0 3 := by
  obtain ⟨r, hr⟩ := Response.exists_ofCode_fieldOf v 3
  rw [← Topology.ofCode_eq_none_iff, FiltCtrl.ofWord, hr]
  cases Topology.ofCode (fieldOf v 0 3) <;> simp

theorem DlyCtrl.ofWord_eq_none_iff (v : Word) :
    DlyCtrl.ofWord v = none ↔ 5 ≤ fieldOf v 0 3 ∨ 10 ≤ fieldOf v 5 4 := by
  rw [← DelayMode.ofCode_eq_none_iff, ← Division.ofCode_eq_none_iff, DlyCtrl.ofWord]
  cases DelayMode.ofCode (fieldOf v 0 3) <;> cases Division.ofCode (fieldOf v 5 4) <;> simp

theorem EfxCtrl.ofWord_eq_none_iff (v : Word) : EfxCtrl.ofWord v = none ↔ fieldOf v 0 2 = 3 := by
  have hmode := fieldOf_lt v 0 2
  obtain ⟨r, hr⟩ := Response.exists_ofCode_fieldOf v 2
  rw [show fieldOf v 0 2 = 3 ↔ 3 ≤ fieldOf v 0 2 by omega, ← EffectMode.ofCode_eq_none_iff, EfxCtrl.ofWord, hr]
  cases EffectMode.ofCode (fieldOf v 0 2) <;> simp

/-! ### A field register ignores its reserved bits (10_state.md R33, R40, R45, R48, R52) -/

theorem Ctrl.ofWord_and (v : Word) : Ctrl.ofWord (v &&& 0x1F) = Ctrl.ofWord v := by
  have hm : (0x1F : Word).toNat = 2 ^ 5 - 1 := rfl
  simp only [Ctrl.ofWord, bitOf_and_low hm, Nat.reduceLT]

theorem OscCtrl.ofWord_and (v : Word) : OscCtrl.ofWord (v &&& 0x3FFF) = OscCtrl.ofWord v := by
  have hm : (0x3FFF : Word).toNat = 2 ^ 14 - 1 := rfl
  simp only [OscCtrl.ofWord, fieldOf_and_low hm, bitOf_and_low hm, Nat.reduceAdd, Nat.reduceLeDiff, Nat.reduceLT]

theorem FiltCtrl.ofWord_and (v : Word) : FiltCtrl.ofWord (v &&& 0xFF) = FiltCtrl.ofWord v := by
  have hm : (0xFF : Word).toNat = 2 ^ 8 - 1 := rfl
  simp only [FiltCtrl.ofWord, fieldOf_and_low hm, bitOf_and_low hm, Nat.reduceAdd, Nat.reduceLeDiff, Nat.reduceLT]

theorem DlyCtrl.ofWord_and (v : Word) : DlyCtrl.ofWord (v &&& 0x1FF) = DlyCtrl.ofWord v := by
  have hm : (0x1FF : Word).toNat = 2 ^ 9 - 1 := rfl
  simp only [DlyCtrl.ofWord, fieldOf_and_low hm, bitOf_and_low hm, Nat.reduceAdd, Nat.reduceLeDiff, Nat.reduceLT]

theorem EfxCtrl.ofWord_and (v : Word) : EfxCtrl.ofWord (v &&& 0xF) = EfxCtrl.ofWord v := by
  have hm : (0xF : Word).toNat = 2 ^ 4 - 1 := rfl
  simp only [EfxCtrl.ofWord, fieldOf_and_low hm, Nat.reduceAdd, Nat.reduceLeDiff]

/-! ### `WriteValue` of each type (40_host_commands.md R135) -/

/-- A range that a clamp can put every value into; an I64 range must start at an I64 value. -/
def RegKind.Clamps : RegKind → Prop
  | .f64 lo hi => fle lo hi = true
  | .i64 lo hi => -0x8000000000000000 ≤ lo ∧ lo < 0x8000000000000000 ∧ lo ≤ hi
  | .seed | .ctrl | .oscCtrl | .filtCtrl | .dlyCtrl | .efxCtrl => True

theorem iclamp_eq_max_min {n lo hi : Int} (h : lo ≤ hi) : iclamp n lo hi = max lo (min n hi) := by
  unfold iclamp; grind

theorem writeValue_f64_eq_none_iff (lo hi : F64) (v : Word) : writeValue (.f64 lo hi) v = none ↔ isNaN v = true := by
  rw [writeValue_f64]; simp

theorem writeValue_f64_eq_some {lo hi : F64} {v x : Word} (hx : writeValue (.f64 lo hi) v = some x) :
    isNaN v = false ∧ x = fclamp v lo hi := by
  rw [writeValue_f64] at hx
  cases hv : isNaN v <;> simp_all

theorem not_flt_of_fle {a b : F64} (h : fle a b = true) : flt b a = false := by
  rw [Bool.eq_false_iff, ne_eq, flt_iff]
  rw [fle_iff] at h
  omega

/-- The three cases of the clamp exclude each other on a range that is not empty. -/
theorem fclamp_spec {lo hi : F64} (v : F64) (h : fle lo hi = true) :
    (fle lo v = true → fle v hi = true → fclamp v lo hi = v) ∧ (flt v lo = true → fclamp v lo hi = lo) ∧
      (flt hi v = true → fclamp v lo hi = hi) := by
  refine ⟨fun hlo hhi => ?inside, fun hlo => if_pos hlo, fun hhi => ?above⟩
  case inside => rw [fclamp, not_flt_of_fle hlo, not_flt_of_fle hhi]; rfl
  case above =>
    have hlo : fle lo v = true := by
      obtain ⟨hloNum, -, hle⟩ := (fle_iff lo hi).1 h
      obtain ⟨-, hvNum, hlt⟩ := (flt_iff hi v).1 hhi
      exact (fle_iff lo v).2 ⟨hloNum, hvNum, by omega⟩
    rw [fclamp, not_flt_of_fle hlo, hhi]; rfl

theorem toInt_writeValue_i64 {lo hi : Int} (h : (RegKind.i64 lo hi).Clamps) {v x : Word}
    (hx : writeValue (.i64 lo hi) v = some x) : x.toInt = max lo (min v.toInt hi) := by
  obtain ⟨hlo, hlo', hle⟩ := h
  have hv := BitVec.toInt_lt (x := v)
  rw [writeValue_i64, iclamp_eq_max_min hle] at hx
  obtain rfl := Option.some.inj hx
  exact BitVec.toInt_ofInt_eq_self (by decide) (by omega) (by omega)

theorem and_low32 (v : Word) : v &&& 0xFFFFFFFF = (v.extractLsb' 0 32).zeroExtend 64 := by
  apply BitVec.eq_of_toNat_eq
  rw [toNat_and_low (n := 32) rfl, BitVec.toNat_setWidth, BitVec.extractLsb'_toNat, Nat.shiftRight_zero]
  omega

theorem writeValue_seed_eq_none_iff (v : Word) : writeValue .seed v = none ↔ v.extractLsb' 0 32 = 0#32 := by
  have hzero : (v.extractLsb' 0 32).zeroExtend 64 = 0 ↔ v.extractLsb' 0 32 = 0#32 := by
    rw [BitVec.toNat_eq, BitVec.toNat_eq, BitVec.toNat_setWidth_of_le (by decide)]
    rfl
  rw [writeValue_seed, and_low32, ← hzero]
  simp

theorem writeValue_seed_eq_some {v x : Word} (hx : writeValue .seed v = some x) :
    (x ≠ 0 ∧ x.toNat < 2 ^ 32) ∧ x = (v.extractLsb' 0 32).zeroExtend 64 := by
  rw [writeValue_seed, and_low32] at hx
  split at hx
  case isTrue => cases hx
  case isFalse hne =>
    obtain rfl := Option.some.inj hx
    refine ⟨⟨hne, ?_⟩, rfl⟩
    rw [← and_low32, toNat_and_low (n := 32) rfl]
    exact Nat.mod_lt _ (by decide)

/-- A field register takes the value without its reserved bits, with the same fields. -/
theorem writeValue_field {α : Type} {f : Word → Option α} {m v x : Word} (hf : f (v &&& m) = f v)
    (hx : (f v).map (fun _ => v &&& m) = some x) : ((f x).isSome = true ∧ x &&& m = x) ∧ x = v &&& m := by
  obtain ⟨c, hc, rfl⟩ := Option.map_eq_some_iff.1 hx
  refine ⟨⟨?_, ?_⟩, rfl⟩
  · rw [hf, hc]; rfl
  · rw [BitVec.and_assoc, BitVec.and_self]

/-- The values that are refused (40_host_commands.md R136). -/
def RegKind.Refuses (k : RegKind) (v : Word) : Prop :=
  match k with
  | .f64 _ _ => isNaN v = true
  | .i64 _ _ => False
  | .seed => v.extractLsb' 0 32 = 0#32
  | .ctrl => False
  | .oscCtrl => 8 ≤ fieldOf v 1 4 ∨ fieldOf v 5 2 = 3
  | .filtCtrl => 6 ≤ fieldOf v 0 3
  | .dlyCtrl => 5 ≤ fieldOf v 0 3 ∨ 10 ≤ fieldOf v 5 4
  | .efxCtrl => fieldOf v 0 2 = 3

/-- What an accepted value is taken as: clamped, cut to 32 bits or masked (40_host_commands.md R135, R136). -/
def RegKind.Takes (k : RegKind) (v x : Word) : Prop :=
  match k with
  | .f64 lo hi => (fle lo v = true → fle v hi = true → x = v) ∧ (flt v lo = true → x = lo) ∧ (flt hi v = true → x = hi)
  | .i64 lo hi => x.toInt = max lo (min v.toInt hi)
  | .seed => x = (v.extractLsb' 0 32).zeroExtend 64
  | .ctrl => x = v &&& 0x1F
  | .oscCtrl => x = v &&& 0x3FFF
  | .filtCtrl => x = v &&& 0xFF
  | .dlyCtrl => x = v &&& 0x1FF
  | .efxCtrl => x = v &&& 0xF

theorem writeValue_eq_none_iff (k : RegKind) (v : Word) : writeValue k v = none ↔ k.Refuses v := by
  cases k with
  | f64 lo hi => exact writeValue_f64_eq_none_iff lo hi v
  | i64 lo hi => simp [writeValue_i64, RegKind.Refuses]
  | seed => exact writeValue_seed_eq_none_iff v
  | ctrl => simp [writeValue, Ctrl.ofWord, RegKind.Refuses]
  | oscCtrl => exact Option.map_eq_none_iff.trans (OscCtrl.ofWord_eq_none_iff v)
  | filtCtrl => exact Option.map_eq_none_iff.trans (FiltCtrl.ofWord_eq_none_iff v)
  | dlyCtrl => exact Option.map_eq_none_iff.trans (DlyCtrl.ofWord_eq_none_iff v)
  | efxCtrl => exact Option.map_eq_none_iff.trans (EfxCtrl.ofWord_eq_none_iff v)

theorem writeValue_eq_some {k : RegKind} (hk : k.Clamps) {v x : Word} (hx : writeValue k v = some x) :
    k.Admits x ∧ k.Takes v x := by
  cases k with
  | f64 lo hi =>
    obtain ⟨hv, rfl⟩ := writeValue_f64_eq_some hx
    exact ⟨inRange_fclamp hk hv, fclamp_spec v hk⟩
  | i64 lo hi =>
    have hval := toInt_writeValue_i64 hk hx
    obtain ⟨-, -, hle⟩ := hk
    exact ⟨⟨by omega, by omega⟩, hval⟩
  | seed => exact writeValue_seed_eq_some hx
  | ctrl =>
    obtain ⟨⟨-, hmask⟩, hval⟩ := writeValue_field (f := Ctrl.ofWord) (Ctrl.ofWord_and v) hx
    exact ⟨hmask, hval⟩
  | oscCtrl => exact writeValue_field (OscCtrl.ofWord_and v) hx
  | filtCtrl => exact writeValue_field (FiltCtrl.ofWord_and v) hx
  | dlyCtrl => exact writeValue_field (DlyCtrl.ofWord_and v) hx
  | efxCtrl => exact writeValue_field (EfxCtrl.ofWord_and v) hx

/-! ### The range of every register can be clamped into -/

theorem OscReg.kind_clamps (r : OscReg) : r.kind.Clamps := by
  cases r <;> simp only [OscReg.kind, f64Range, RegKind.Clamps] <;> decide

theorem FiltReg.kind_clamps (r : FiltReg) : r.kind.Clamps := by
  cases r <;> simp only [FiltReg.kind, f64Range, RegKind.Clamps] <;> decide

theorem DlyReg.kind_clamps (r : DlyReg) : r.kind.Clamps := by
  cases r <;> simp only [DlyReg.kind, f64Range, RegKind.Clamps] <;> decide

/-- A FIR length has a range because every block has a coefficient. -/
theorem EfxReg.kind_clamps {P : Params} (h : 1 ≤ P.maxFir) (r : EfxReg) : (r.kind P).Clamps := by
  have hfir : (RegKind.i64 1 P.maxFir).Clamps := ⟨by decide, by decide, Int.ofNat_le.2 h⟩
  cases r
  case firLenL | firLenR => exact hfir
  all_goals simp only [EfxReg.kind, f64Range, RegKind.Clamps] <;> decide

theorem PReg.kind_clamps {P : Params} (h : 1 ≤ P.maxFir) (r : PReg) : (r.kind P).Clamps := by
  cases r with
  | ctrl => exact trivial
  | bpm => exact (by decide : fle (ofInt 1) (ofInt 300) = true)
  | osc c r => exact r.kind_clamps
  | filt r => exact r.kind_clamps
  | dly r => exact r.kind_clamps
  | efx r => exact r.kind_clamps h

theorem MReg.kind_clamps (r : MReg) : r.kind.Clamps := by
  cases r <;> simp only [MReg.kind, f64Range, RegKind.Clamps] <;> decide

end Sys2Proof.Machine

/-! PROOFS. The register map against the tables of types and ranges, and from it and `WriteValue` which write is refused and
which is clamped (10_state.md R32, R34, R39, R44, R50, R56, 40_host_commands.md R136). -/

namespace Sys2Proof.Machine

/-! ### The register map against the tables -/

/-- The type and range of a register that has one: P and M registers. -/
def Reg.kindOf (P : Params) : Reg → Option RegKind
  | .p q => some (q.kind P)
  | .m q => some q.kind
  | .d _ | .r _ => none

/-- The `type` and `range` columns of every P and M register, the channels' by their indices. -/
def paramRanges (maxFir : Nat) : List (BitVec 12 × RegKind) :=
  rangeWords maxFir ++ (List.finRange 4).flatMap fun c => oscRangeWords.map fun e => (oscIndex c e.1, e.2)

theorem mem_paramRanges {maxFir : Nat} {e : BitVec 12 × RegKind} :
    e ∈ paramRanges maxFir ↔ e ∈ rangeWords maxFir ∨ ∃ c, ∃ o ∈ oscRangeWords, e = (oscIndex c o.1, o.2) := by
  simp [paramRanges, eq_comm]

theorem oscRangeWords_lt : ∀ o ∈ oscRangeWords, o.1.toNat < 0x40 := by decide

/-- Row by row: each computed range end is the table's literal pattern. -/
theorem mem_rangeWords_kind (P : Params) :
    ∀ e ∈ rangeWords P.maxFir, (regAt e.1).bind (Reg.kindOf P) = some e.2 := by
  simp only [rangeWords, List.forall_mem_append, List.forall_mem_cons, List.not_mem_nil, false_imp_iff,
    implies_true, and_true]
  and_intros <;> rfl

theorem mem_oscRangeWords_kind (P : Params) (c : Chan) :
    ∀ e ∈ oscRangeWords, (oscReg c e.1.toNat).bind (Reg.kindOf P) = some e.2 := by
  simp only [oscRangeWords, List.forall_mem_cons, List.not_mem_nil, false_imp_iff,
    implies_true, and_true]
  and_intros <;> rfl

theorem regAt_oscIndex (c : Chan) {o : BitVec 12} (ho : o.toNat < 0x40) :
    regAt (oscIndex c o) = oscReg c o.toNat := by
  have hc := c.isLt
  have ha : (oscIndex c o).toNat = 0x100 + (0x40 * c.val + o.toNat) := by
    simp only [oscIndex, BitVec.toNat_add, BitVec.toNat_ofNat]
    omega
  have hchan : Fin.ofNat 4 ((0x40 * c.val + o.toNat) / 0x40) = c := by
    ext
    simp only [Fin.ofNat]
    omega
  have hofs : (0x40 * c.val + o.toNat) % 0x40 = o.toNat := by omega
  simp only [regAt, ha, Nat.add_sub_cancel_left, hchan, hofs]
  rw [if_neg (by omega), if_pos (by omega)]

theorem kindOf_regAt_of_mem {P : Params} {e : BitVec 12 × RegKind} (he : e ∈ paramRanges P.maxFir) :
    ∃ q, regAt e.1 = some q ∧ q.kindOf P = some e.2 := by
  rw [← Option.bind_eq_some_iff]
  obtain he | ⟨c, o, ho, rfl⟩ := mem_paramRanges.1 he
  · exact mem_rangeWords_kind P e he
  · rw [regAt_oscIndex c (oscRangeWords_lt o ho)]
    exact mem_oscRangeWords_kind P c o ho

/-- Which unit's map an index is in, with its offset there. -/
theorem regAt_cases {a : BitVec 12} {q : Reg} (h : regAt a = some q) :
    (∃ n, a = BitVec.ofNat 12 n ∧ globalReg n = some q) ∨
      (∃ c n, a = oscIndex c (BitVec.ofNat 12 n) ∧ oscReg c n = some q) ∨
      (∃ n, a = BitVec.ofNat 12 (0x200 + n) ∧ filtReg n = some q) ∨
      (∃ n, a = BitVec.ofNat 12 (0x300 + n) ∧ dlyReg n = some q) ∨
      ∃ n, a = BitVec.ofNat 12 (0x400 + n) ∧ efxReg n = some q := by
  have hofs {base : Nat} (hle : base ≤ a.toNat) : a = BitVec.ofNat 12 (base + (a.toNat - base)) := by
    rw [Nat.add_sub_cancel' hle, BitVec.ofNat_toNat, BitVec.setWidth_eq]
  unfold regAt at h
  dsimp only at h
  split at h
  · exact .inl ⟨_, (hofs (Nat.zero_le _)).trans (by simp), h⟩
  split at h
  · refine .inr (.inl ⟨_, _, ?_, h⟩)
    apply BitVec.eq_of_toNat_eq
    simp only [oscIndex, Fin.ofNat, BitVec.toNat_add, BitVec.toNat_ofNat]
    omega
  split at h
  · exact .inr (.inr (.inl ⟨_, hofs (by omega), h⟩))
  split at h
  · exact .inr (.inr (.inr (.inl ⟨_, hofs (by omega), h⟩)))
  split at h
  · exact .inr (.inr (.inr (.inr ⟨_, hofs (by omega), h⟩)))
  · cases h

/-! ### The indices of the M registers -/

theorem globalReg_m {n : Nat} {q : MReg} (h : globalReg n = some (.m q)) : n = 0x0A := by
  unfold globalReg at h; split at h <;> cases h; rfl

theorem oscReg_m {c : Chan} {n : Nat} {q : MReg} (h : oscReg c n = some (.m q)) : n = 0x14 := by
  unfold oscReg at h; split at h <;> cases h; rfl

theorem filtReg_m {n : Nat} {q : MReg} (h : filtReg n = some (.m q)) : n = 0x08 ∨ n = 0x09 := by
  unfold filtReg at h; split at h <;> cases h <;> simp

theorem dlyReg_ne_m (n : Nat) (q : MReg) : dlyReg n ≠ some (.m q) := by
  intro h; unfold dlyReg at h; split at h <;> cases h

theorem efxReg_ne_m (n : Nat) (q : MReg) : efxReg n ≠ some (.m q) := by
  intro h; unfold efxReg at h; split at h <;> cases h

theorem regAt_m_mem {a : BitVec 12} {q : MReg} (h : regAt a = some (.m q)) :
    a ∈ [0x00A#12, 0x114#12, 0x154#12, 0x194#12, 0x1D4#12, 0x208#12, 0x209#12] := by
  obtain ⟨n, rfl, hn⟩ | ⟨c, n, rfl, hn⟩ | ⟨n, rfl, hn⟩ | ⟨n, -, hn⟩ | ⟨n, -, hn⟩ := regAt_cases h
  · rw [globalReg_m hn]; decide
  · have hosc : ∀ c : Chan,
        oscIndex c 0x014 ∈ [0x00A#12, 0x114#12, 0x154#12, 0x194#12, 0x1D4#12, 0x208#12, 0x209#12] := by
      decide
    rw [oscReg_m hn]
    exact hosc c
  · obtain rfl | rfl := filtReg_m hn <;> decide
  · exact absurd hn (dlyReg_ne_m n q)
  · exact absurd hn (efxReg_ne_m n q)

/-! ### Every P and M register is in the tables -/

theorem globalReg_index_mem {n : Nat} {q : Reg} (h : globalReg n = some q) :
    (q.kindOf theParams).isSome = true → BitVec.ofNat 12 n ∈ (rangeWords theParams.maxFir).map Prod.fst := by
  unfold globalReg at h; split at h <;> cases h <;> decide

theorem oscReg_index_mem {c : Chan} {n : Nat} {q : Reg} (h : oscReg c n = some q) :
    (q.kindOf theParams).isSome = true → BitVec.ofNat 12 n ∈ oscRangeWords.map Prod.fst := by
  unfold oscReg at h; split at h <;> cases h <;> decide +revert

theorem filtReg_index_mem {n : Nat} {q : Reg} (h : filtReg n = some q) :
    (q.kindOf theParams).isSome = true → BitVec.ofNat 12 (0x200 + n) ∈ (rangeWords theParams.maxFir).map Prod.fst := by
  unfold filtReg at h; split at h <;> cases h <;> decide

theorem dlyReg_index_mem {n : Nat} {q : Reg} (h : dlyReg n = some q) :
    (q.kindOf theParams).isSome = true → BitVec.ofNat 12 (0x300 + n) ∈ (rangeWords theParams.maxFir).map Prod.fst := by
  unfold dlyReg at h; split at h <;> cases h <;> decide

theorem efxReg_index_mem {n : Nat} {q : Reg} (h : efxReg n = some q) :
    (q.kindOf theParams).isSome = true → BitVec.ofNat 12 (0x400 + n) ∈ (rangeWords theParams.maxFir).map Prod.fst := by
  unfold efxReg at h; split at h <;> cases h <;> decide

theorem exists_mem_paramRanges {a : BitVec 12} {q : Reg} (h : regAt a = some q)
    (hk : (q.kindOf theParams).isSome = true) : ∃ k, (a, k) ∈ paramRanges theParams.maxFir := by
  have hunit (ha : a ∈ (rangeWords theParams.maxFir).map Prod.fst) : ∃ k, (a, k) ∈ paramRanges theParams.maxFir := by
    obtain ⟨e, he, rfl⟩ := List.mem_map.1 ha
    exact ⟨e.2, mem_paramRanges.2 (.inl he)⟩
  obtain ⟨n, rfl, hn⟩ | ⟨c, n, rfl, hn⟩ | ⟨n, rfl, hn⟩ | ⟨n, rfl, hn⟩ | ⟨n, rfl, hn⟩ := regAt_cases h
  · exact hunit (globalReg_index_mem hn hk)
  · obtain ⟨o, ho, hon⟩ := List.mem_map.1 (oscReg_index_mem hn hk)
    exact ⟨o.2, mem_paramRanges.2 (.inr ⟨c, o, ho, by rw [hon]⟩)⟩
  · exact hunit (filtReg_index_mem hn hk)
  · exact hunit (dlyReg_index_mem hn hk)
  · exact hunit (efxReg_index_mem hn hk)

/-- Settles O15: the tables by unit of the register map, then `WriteValue` by the register's type, every register's range
being one that values can be clamped into. -/
theorem writeRefusedOrClamped : Obligations.WriteRefusedOrClamped := by
  refine ⟨fun e he => ?table, fun a ha => ?listed, fun k v hk => ?value⟩
  case table =>
    obtain ⟨q, hq, hkind⟩ := kindOf_regAt_of_mem (P := theParams) he
    cases q with
    | p r => exact .inl ⟨r, hq, Option.some.inj hkind⟩
    | m r => exact .inr ⟨r, regAt_m_mem hq, hq, Option.some.inj hkind⟩
    | d r => cases hkind
    | r r => cases hkind
  case listed =>
    obtain ⟨r, hr⟩ | ⟨r, hr⟩ := ha
    · exact exists_mem_paramRanges hr rfl
    · exact exists_mem_paramRanges hr rfl
  case value =>
    have hclamps : k.Clamps := by
      obtain ⟨r, rfl⟩ | ⟨r, rfl⟩ := hk
      · exact r.kind_clamps one_le_maxFir
      · exact r.kind_clamps
    exact ⟨writeValue_eq_none_iff k v, fun x hx => writeValue_eq_some hclamps hx⟩

end Sys2Proof.Machine

/-! PROOFS. `OSC_PHASE_RESET`: its words, and what it does to its channel (41_oscillators.md R199). -/

namespace Sys2Proof.Machine

/-- The word of opcode 0x09 with a selector and no other field, whether or not the selector names a channel. -/
theorem commandWord_oscPhaseReset (n : Fin 16) :
    commandWord 0x09#8 (BitVec.ofNat 4 n.val) 0 = 0x09000000#32 ||| BitVec.ofNat 32 n.val <<< 20 := by
  decide +revert

theorem decode_oscPhaseReset_word (n : Fin 16) (v : Word) :
    decode ⟨0x09000000#32 ||| BitVec.ofNat 32 n.val <<< 20, v⟩ =
      needSel (.oscPhaseReset (BitVec.ofNat 4 n.val)) (decide (BitVec.ofNat 4 n.val ≤ 3#4)) := by
  rw [← commandWord_oscPhaseReset, decode_commandWord]
  rfl

theorem exec_oscPhaseReset (c : Chan) (s : State) :
    exec (.oscPhaseReset (selOf c)) s = .next (setOsc c s.osc[c].phaseReset s) := by
  simp only [exec, execOscPhaseReset, chanOfSel_selOf]

/-- Settles O29: the decoder takes the word of every selector to the selector's own legality check, and the command is
the channel's phase reset put in place. -/
theorem oscPhaseReset : Obligations.OscPhaseReset := by
  refine ⟨fun c v => ?legal, fun n v hn => ⟨.selector, ?illegal⟩, fun s c => exec_oscPhaseReset c s⟩
  case legal =>
    have hsel : BitVec.ofNat 4 c.val ≤ 3#4 := by decide +revert
    exact (decode_oscPhaseReset_word (c.castLE (by decide)) v).trans (needSel_of_legal (decide_eq_true hsel) _)
  case illegal =>
    have hsel : ¬ BitVec.ofNat 4 n.val ≤ 3#4 := by decide +revert
    rw [decode_oscPhaseReset_word, decide_eq_false hsel]
    rfl

end Sys2Proof.Machine

/-! PROOFS. The phase increment `DT`: what a read of the register answers, and the range its last two operations put it in
(41_oscillators.md R174). -/

namespace Sys2Proof.Machine

/-- Raising the minimum to the lower end gives a value in the range whatever `x` is: of a NaN `fmin` takes the upper
end. -/
theorem inRange_fmax_fmin {lo hi : F64} (h : fle lo hi = true) (x : F64) : inRange lo hi (fmax (fmin x hi) lo) = true := by
  obtain ⟨hlo, hhi, hle⟩ := (fle_iff lo hi).1 h
  have hmin : fle (fmin x hi) hi = true := by
    unfold fmin
    split
    case isTrue hx =>
      obtain ⟨hxNum, -, hlt⟩ := (flt_iff x hi).1 hx
      exact (fle_iff x hi).2 ⟨hxNum, hhi, hlt.le⟩
    case isFalse => exact (fle_iff hi hi).2 ⟨hhi, hhi, le_rfl⟩
  rw [inRange_iff]
  unfold fmax
  split
  case isTrue hx =>
    obtain ⟨-, hxNum, hlt⟩ := (flt_iff lo _).1 hx
    exact ⟨(fle_iff lo _).2 ⟨hlo, hxNum, hlt.le⟩, hmin⟩
  case isFalse => exact ⟨(fle_iff lo lo).2 ⟨hlo, hlo, le_rfl⟩, h⟩

theorem regAt_oscIndex_dt (c : Chan) : regAt (oscIndex c 0x1C#12) = some (.r (.osc c .dt)) :=
  regAt_oscIndex c (by decide)

theorem exec_csrRead_dt (c : Chan) (s : State) :
    exec (.csrRead (oscIndex c 0x1C#12)) s = .next (respond (dtOf theParams s.activeP.osc[c] s.activeM.modIn[c]) s) := by
  simp only [exec, execCsrRead, csrRead, regAt_oscIndex_dt]
  rfl

theorem dt_index (c : Chan) : 0x11C#12 + BitVec.ofNat 12 (0x40 * c.val) = oscIndex c 0x1C#12 := by decide +revert

/-- Settles O23: `DT`'s index reads the derived register, and the expression ends in a minimum with 0.5 and a maximum
with 0.0. -/
theorem phaseIncrement : Obligations.PhaseIncrement := by
  intro s c q t f dt
  refine ⟨?read, inRange_fmax_fmin (by decide) _⟩
  case read =>
    rw [dt_index, exec_csrRead_dt]
    rfl

end Sys2Proof.Machine

/-! PROOFS. Binary64 patterns as numbers: the exponent and significand of a pattern, the order of the patterns as that
of the numbers they stand for, and that each operation rounds monotonically: it never passes a finite value that the
exact result does not pass (00_scope.md R14, R15). -/

namespace Sys2Proof.Machine

/-! ### The fields of a pattern -/

theorem expField_eq (x : F64) : expField x = magnitude x / 2 ^ 52 := by unfold expField magnitude; omega

theorem fracField_eq (x : F64) : fracField x = magnitude x % 2 ^ 52 := by unfold fracField magnitude; omega

theorem magnitude_lt (x : F64) : magnitude x < 2 ^ 63 := Nat.mod_lt _ (by decide)

theorem isFinite_iff (x : F64) : isFinite x = true ↔ magnitude x < infMagnitude := by
  have := magnitude_lt x
  simp only [isFinite, bne_iff_ne, ne_eq, expField_eq, infMagnitude]
  omega

theorem isInf_iff (x : F64) : isInf x = true ↔ magnitude x = infMagnitude := by
  have := magnitude_lt x
  simp only [isInf, Bool.and_eq_true, beq_iff_eq, expField_eq, fracField_eq, infMagnitude]
  omega

theorem isNaN_eq_false_iff (x : F64) : isNaN x = false ↔ magnitude x ≤ infMagnitude := by
  have := magnitude_lt x
  rw [← Bool.not_eq_true]
  simp only [isNaN, Bool.and_eq_true, beq_iff_eq, bne_iff_ne, ne_eq, expField_eq, fracField_eq, infMagnitude]
  omega

theorem isNaN_of_isFinite {x : F64} (h : isFinite x = true) : isNaN x = false :=
  (isNaN_eq_false_iff x).2 ((isFinite_iff x).1 h).le

theorem isInf_of_isFinite {x : F64} (h : isFinite x = true) : isInf x = false := by
  rw [← Bool.not_eq_true, isInf_iff]
  exact ((isFinite_iff x).1 h).ne

@[simp] theorem signBit_ofMagnitude {neg : Bool} {m : Nat} (h : m < 2 ^ 63) : signBit (ofMagnitude neg m) = neg := by
  unfold signBit ofMagnitude
  rw [BitVec.msb_eq_decide, BitVec.toNat_ofNat]
  cases neg <;> simp <;> omega

@[simp] theorem magnitude_ofMagnitude {neg : Bool} {m : Nat} (h : m < 2 ^ 63) : magnitude (ofMagnitude neg m) = m := by
  unfold magnitude ofMagnitude
  rw [BitVec.toNat_ofNat]
  cases neg <;> simp <;> omega

@[simp] theorem signBit_flipSign (x : F64) : signBit (flipSign x) = !signBit x := by
  simp only [signBit, flipSign, BitVec.msb_xor, show (0x8000000000000000#64).msb = true from rfl, Bool.xor_true]

@[simp] theorem magnitude_flipSign (x : F64) : magnitude (flipSign x) = magnitude x := by
  unfold magnitude flipSign
  rw [BitVec.toNat_xor, Nat.xor_mod_two_pow]
  exact Nat.xor_zero _

@[simp] theorem isFinite_flipSign (x : F64) : isFinite (flipSign x) = isFinite x := by
  unfold isFinite; rw [expField_eq, expField_eq, magnitude_flipSign]

@[simp] theorem orderKey_flipSign (x : F64) : orderKey (flipSign x) = -orderKey x := by
  unfold orderKey signedInt; cases h : signBit x <;> simp [h]

/-! ### The number a pattern stands for -/

theorem abs_ratOf (x : F64) : |ratOf x| = (significand x : ℚ) * (2 : ℚ) ^ exponent x := by
  unfold ratOf signedInt
  rw [abs_mul, abs_of_pos (a := (2 : ℚ) ^ exponent x) (zpow_pos two_pos _)]
  cases signBit x <;> simp

theorem ratOf_eq_abs (x : F64) : ratOf x = if signBit x then -|ratOf x| else |ratOf x| := by
  rw [abs_ratOf]
  unfold ratOf signedInt
  cases signBit x <;> simp

@[simp] theorem ratOf_flipSign (x : F64) : ratOf (flipSign x) = -ratOf x := by
  unfold ratOf significand exponent signedInt
  simp only [expField_eq, fracField_eq, magnitude_flipSign, signBit_flipSign]
  cases signBit x <;> simp

theorem ratOf_f0 : ratOf f0 = 0 := by
  rw [ratOf, show significand f0 = 0 by decide, show signBit f0 = false by decide]; simp [signedInt]

theorem ratOf_f1 : ratOf f1 = 1 := by
  rw [ratOf, show significand f1 = 2 ^ 52 by decide, show signBit f1 = false by decide,
    show exponent f1 = -52 by decide]
  norm_num [signedInt]

/-! ### Exponent and significand: the code `(q + 1074) * 2 ^ 52 + r` of `r * 2 ^ q` -/

/-- `M` codes the number `v` as bits 62:0 of a pattern do: `v = r * 2 ^ q` with a significand of 53 bits, full unless
`q` is the least exponent. -/
def Codes (M : Int) (v : ℚ) : Prop :=
  ∃ (q : Int) (r : Nat), -1074 ≤ q ∧ r < 2 ^ 53 ∧ (-1074 < q → 2 ^ 52 ≤ r) ∧ M = (q + 1074) * 2 ^ 52 + r ∧
    v = (r : ℚ) * 2 ^ q

theorem exponent_ge (x : F64) : -1074 ≤ exponent x := by unfold exponent; omega

theorem significand_lt (x : F64) : significand x < 2 ^ 53 := by unfold significand fracField; split <;> omega

theorem le_significand {x : F64} (h : -1074 < exponent x) : 2 ^ 52 ≤ significand x := by
  unfold exponent at h
  unfold significand
  rw [if_neg (by omega)]
  exact Nat.le_add_right _ _

theorem magnitude_eq (x : F64) : (magnitude x : Int) = (exponent x + 1074) * 2 ^ 52 + significand x := by
  have h : magnitude x = expField x * 2 ^ 52 + fracField x := by rw [expField_eq, fracField_eq]; omega
  unfold exponent significand
  split <;> omega

theorem codes_magnitude (x : F64) : Codes (magnitude x) |ratOf x| :=
  ⟨exponent x, significand x, exponent_ge x, significand_lt x, le_significand, magnitude_eq x, abs_ratOf x⟩

theorem codes_zero : Codes 0 0 := ⟨-1074, 0, le_rfl, by decide, fun h => absurd h (lt_irrefl _), by decide, by simp⟩

/-- The carry of a rounding: a significand of `2 ^ 53` codes the next power of two. -/
theorem codes_of_le {q : Int} {r : Nat} (hq : -1074 ≤ q) (hr : r ≤ 2 ^ 53) (hfull : -1074 < q → 2 ^ 52 ≤ r) :
    Codes ((q + 1074) * 2 ^ 52 + r) ((r : ℚ) * 2 ^ q) := by
  obtain hlt | rfl := hr.lt_or_eq
  · exact ⟨q, r, hq, hlt, hfull, rfl, rfl⟩
  · refine ⟨q + 1, 2 ^ 52, by omega, by decide, fun _ => le_rfl, by push_cast; ring, ?_⟩
    rw [zpow_add_one₀ two_ne_zero]
    push_cast
    ring

theorem mul_zpow_lt_of_exponent_lt {q q' : Int} {r r' : Nat} (hr : r < 2 ^ 53) (hr' : 2 ^ 52 ≤ r') (h : q < q') :
    (r : ℚ) * 2 ^ q < (r' : ℚ) * 2 ^ q' :=
  calc (r : ℚ) * 2 ^ q < 2 ^ 53 * 2 ^ q := by
        have : (r : ℚ) < 2 ^ 53 := by exact_mod_cast hr
        gcongr
    _ = 2 ^ 52 * 2 ^ (q + 1) := by rw [zpow_add_one₀ two_ne_zero]; ring
    _ ≤ (r' : ℚ) * 2 ^ q' := by
        have : (2 : ℚ) ^ 52 ≤ r' := by exact_mod_cast hr'
        gcongr
        · norm_num
        · omega

/-- A larger code is a larger number: first by the exponent, then by the significand. -/
theorem Codes.le_iff {M N : Int} {v w : ℚ} (hM : Codes M v) (hN : Codes N w) : v ≤ w ↔ M ≤ N := by
  obtain ⟨q, r, hq, hr, hfull, rfl, rfl⟩ := hM
  obtain ⟨q', r', hq', hr', hfull', rfl, rfl⟩ := hN
  obtain hlt | rfl | hlt := lt_trichotomy q q'
  · have hnum := mul_zpow_lt_of_exponent_lt hr (hfull' (by omega)) hlt
    have := hfull' (by omega)
    exact iff_of_true hnum.le (by omega)
  · rw [mul_le_mul_iff_left₀ (zpow_pos two_pos q), Nat.cast_le]
    omega
  · have hnum := mul_zpow_lt_of_exponent_lt hr' (hfull (by omega)) hlt
    have := hfull (by omega)
    exact iff_of_false hnum.not_ge (by omega)

theorem abs_ratOf_le_iff (x y : F64) : |ratOf x| ≤ |ratOf y| ↔ magnitude x ≤ magnitude y := by
  rw [(codes_magnitude x).le_iff (codes_magnitude y), Nat.cast_le]

theorem abs_ratOf_eq_zero_iff (x : F64) : |ratOf x| = 0 ↔ magnitude x = 0 := by
  rw [← (abs_nonneg (ratOf x)).ge_iff_eq', (codes_magnitude x).le_iff codes_zero]
  omega

/-- The order of the patterns is that of the numbers they stand for (00_scope.md R15). -/
theorem ratOf_le_iff (x y : F64) : ratOf x ≤ ratOf y ↔ orderKey x ≤ orderKey y := by
  have hle := abs_ratOf_le_iff x y
  have hge := abs_ratOf_le_iff y x
  have hx := abs_ratOf_eq_zero_iff x
  have hy := abs_ratOf_eq_zero_iff y
  have hx0 := abs_nonneg (ratOf x)
  have hy0 := abs_nonneg (ratOf y)
  rw [ratOf_eq_abs x, ratOf_eq_abs y]
  unfold orderKey signedInt
  cases signBit x <;> cases signBit y <;> simp only [if_true, if_false, Bool.false_eq_true]
  case false.false => exact hle.trans Int.ofNat_le.symm
  case false.true =>
    constructor
    · intro h
      have := hx.1 (by linarith)
      have := hy.1 (by linarith)
      omega
    · intro h
      have := hx.2 (by omega)
      have := hy.2 (by omega)
      linarith
  case true.false => exact iff_of_true (by linarith) (by omega)
  case true.true => rw [neg_le_neg_iff, hge]; omega

theorem ratOf_lt_iff (x y : F64) : ratOf x < ratOf y ↔ orderKey x < orderKey y := by
  rw [← not_le, ← not_le, ratOf_le_iff]

/-! ### Rounding a significand -/

theorem roundShift_le {m k s : Nat} (h : m ≤ s * 2 ^ k) : roundShift m k ≤ s := by
  have hpos : 0 < 2 ^ k := Nat.two_pow_pos k
  have hle : m / 2 ^ k ≤ s := Nat.div_le_of_le_mul (by rwa [mul_comm])
  have hdiv : 2 ^ k * (m / 2 ^ k) + m % 2 ^ k = m := Nat.div_add_mod m _
  obtain hlt | heq := hle.lt_or_eq
  · unfold roundShift
    dsimp only
    split_ifs <;> omega
  · have hmod : m % 2 ^ k = 0 := by rw [heq] at hdiv; rw [mul_comm] at hdiv; omega
    unfold roundShift
    dsimp only
    rw [hmod, if_neg (by omega), if_neg (by omega), heq]

theorem le_roundShift {m k s : Nat} (h : s * 2 ^ k ≤ m) : s ≤ roundShift m k := by
  have hle : s ≤ m / 2 ^ k := (Nat.le_div_iff_mul_le (Nat.two_pow_pos k)).2 h
  unfold roundShift
  dsimp only
  split_ifs <;> omega

/-- The significand that `roundDyadic` gives `m * 2 ^ e`. -/
def roundedSignificand (m : Nat) (e : Int) : Nat :=
  if quantum m e ≤ e then m * 2 ^ (e - quantum m e).toNat else roundShift m (quantum m e - e).toNat

theorem roundDyadic_eq {m : Nat} (hm : m ≠ 0) (neg : Bool) (e : Int) :
    roundDyadic neg m e =
      ofMagnitude neg (min ((quantum m e + 1074).toNat * 2 ^ 52 + roundedSignificand m e) infMagnitude) := if_neg hm

/-- A number over a common power of two: the larger exponent moves into the significand. -/
theorem mul_zpow_eq_of_le (n : Nat) {d e : Int} (h : d ≤ e) :
    (n : ℚ) * 2 ^ e = ((n * 2 ^ (e - d).toNat : Nat) : ℚ) * 2 ^ d := by
  push_cast
  rw [mul_assoc, ← zpow_natCast, ← zpow_add₀ two_ne_zero]
  congr 2
  omega

theorem roundedSignificand_le {m s : Nat} {e : Int} (h : (m : ℚ) * 2 ^ e ≤ s * 2 ^ quantum m e) :
    roundedSignificand m e ≤ s := by
  unfold roundedSignificand
  split
  case isTrue hq =>
    rwa [mul_zpow_eq_of_le m hq, mul_le_mul_iff_left₀ (zpow_pos two_pos _), Nat.cast_le] at h
  case isFalse hq =>
    rw [mul_zpow_eq_of_le s (not_le.1 hq).le, mul_le_mul_iff_left₀ (zpow_pos two_pos _), Nat.cast_le] at h
    exact roundShift_le h

theorem le_roundedSignificand {m s : Nat} {e : Int} (h : (s : ℚ) * 2 ^ quantum m e ≤ m * 2 ^ e) :
    s ≤ roundedSignificand m e := by
  unfold roundedSignificand
  split
  case isTrue hq =>
    rwa [mul_zpow_eq_of_le m hq, mul_le_mul_iff_left₀ (zpow_pos two_pos _), Nat.cast_le] at h
  case isFalse hq =>
    rw [mul_zpow_eq_of_le s (not_le.1 hq).le, mul_le_mul_iff_left₀ (zpow_pos two_pos _), Nat.cast_le] at h
    exact le_roundShift h

/-! ### The spacing of a number, and the number it is rounded to -/

theorem lt_quantum {m : Nat} (e : Int) : (m : ℚ) * 2 ^ e < ((2 ^ 53 : Nat) : ℚ) * 2 ^ quantum m e := by
  have hm : (m : ℚ) < 2 ^ (m.log2 + 1) := by exact_mod_cast Nat.lt_log2_self
  have hq : e + m.log2 - 52 ≤ quantum m e := le_max_left _ _
  calc (m : ℚ) * 2 ^ e < 2 ^ (m.log2 + 1) * 2 ^ e := by gcongr
    _ = 2 ^ ((m.log2 + 1 : Nat) + e : Int) := by rw [← zpow_natCast, ← zpow_add₀ two_ne_zero]
    _ ≤ 2 ^ (53 + quantum m e) := zpow_le_zpow_right₀ one_le_two (by push_cast; omega)
    _ = ((2 ^ 53 : Nat) : ℚ) * 2 ^ quantum m e := by rw [zpow_add₀ two_ne_zero]; norm_num

theorem quantum_le {m : Nat} (hm : m ≠ 0) {e : Int} (hq : -1074 < quantum m e) :
    ((2 ^ 52 : Nat) : ℚ) * 2 ^ quantum m e ≤ m * 2 ^ e := by
  have hm' : (2 : ℚ) ^ m.log2 ≤ m := by exact_mod_cast Nat.log2_self_le hm
  have heq : quantum m e = e + m.log2 - 52 := by unfold quantum at hq ⊢; omega
  calc ((2 ^ 52 : Nat) : ℚ) * 2 ^ quantum m e = 2 ^ (52 + quantum m e) := by rw [zpow_add₀ two_ne_zero]; norm_num
    _ = 2 ^ m.log2 * 2 ^ e := by rw [← zpow_natCast, ← zpow_add₀ two_ne_zero, heq]; congr 1; omega
    _ ≤ m * 2 ^ e := by gcongr

theorem quantum_ge (m : Nat) (e : Int) : -1074 ≤ quantum m e := le_max_right _ _

theorem codes_roundedSignificand {m : Nat} (hm : m ≠ 0) (e : Int) :
    Codes (((quantum m e + 1074).toNat * 2 ^ 52 + roundedSignificand m e : Nat) : Int)
      ((roundedSignificand m e : ℚ) * 2 ^ quantum m e) := by
  have hq := quantum_ge m e
  have h := codes_of_le hq (roundedSignificand_le (lt_quantum e).le)
    (fun hlt => le_roundedSignificand (quantum_le hm hlt))
  push_cast
  rwa [Int.toNat_of_nonneg (by omega)]

/-- The rounding does not pass a number that has a code: with an exponent of at least the spacing's it is a multiple of
the spacing, and with a lesser one it is below every number of that spacing. -/
theorem Codes.rounded_le {N : Int} {w : ℚ} (hN : Codes N w) {m : Nat} (hm : m ≠ 0) {e : Int} (h : (m : ℚ) * 2 ^ e ≤ w) :
    (roundedSignificand m e : ℚ) * 2 ^ quantum m e ≤ w := by
  obtain ⟨q, r, hq, hr, -, -, rfl⟩ := hN
  obtain hle | hlt := le_or_gt (quantum m e) q
  · rw [mul_zpow_eq_of_le r hle] at h ⊢
    have := roundedSignificand_le h
    gcongr
  · have hr' : (r : ℚ) * 2 ^ q < _ := mul_zpow_lt_of_exponent_lt hr le_rfl hlt
    exact absurd h (hr'.trans_le (quantum_le hm (hq.trans_lt hlt))).not_ge

/-- The same from the other side. -/
theorem Codes.le_rounded {N : Int} {w : ℚ} (hN : Codes N w) {m : Nat} (hm : m ≠ 0) {e : Int} (h : w ≤ (m : ℚ) * 2 ^ e) :
    w ≤ (roundedSignificand m e : ℚ) * 2 ^ quantum m e := by
  obtain ⟨q, r, hq, hr, -, -, rfl⟩ := hN
  obtain hle | hlt := le_or_gt (quantum m e) q
  · rw [mul_zpow_eq_of_le r hle] at h ⊢
    have := le_roundedSignificand h
    gcongr
  · exact (mul_zpow_lt_of_exponent_lt hr (le_roundedSignificand (quantum_le hm (hq.trans_lt hlt))) hlt).le

theorem infMagnitude_lt : infMagnitude < 2 ^ 63 := by decide

theorem orderKey_eq (x : F64) : orderKey x = if signBit x then -(magnitude x : Int) else magnitude x := rfl

theorem magnitude_roundDyadic_le (neg : Bool) (m : Nat) {e : Int} {y : F64} (h : (m : ℚ) * 2 ^ e ≤ |ratOf y|) :
    magnitude (roundDyadic neg m e) ≤ magnitude y := by
  by_cases hm : m = 0
  case pos => rw [hm, roundDyadic, if_pos rfl, signedZero, magnitude_ofMagnitude (by decide)]; exact Nat.zero_le _
  have hle := (codes_roundedSignificand hm e).le_iff (codes_magnitude y) |>.1 ((codes_magnitude y).rounded_le hm h)
  have := infMagnitude_lt
  rw [roundDyadic_eq hm, magnitude_ofMagnitude (by omega)]
  exact (min_le_left _ _).trans (Int.ofNat_le.1 hle)

theorem le_magnitude_roundDyadic (neg : Bool) (m : Nat) {e : Int} {y : F64} (hy : isFinite y = true)
    (h : |ratOf y| ≤ (m : ℚ) * 2 ^ e) : magnitude y ≤ magnitude (roundDyadic neg m e) := by
  by_cases hm : m = 0
  case pos =>
    have h0 : |ratOf y| = 0 := le_antisymm (by simpa [hm] using h) (abs_nonneg _)
    rw [(abs_ratOf_eq_zero_iff y).1 h0]
    exact Nat.zero_le _
  have hle := (codes_magnitude y).le_iff (codes_roundedSignificand hm e) |>.1 ((codes_magnitude y).le_rounded hm h)
  have := infMagnitude_lt
  rw [roundDyadic_eq hm, magnitude_ofMagnitude (by omega)]
  exact le_min (Int.ofNat_le.1 hle) ((isFinite_iff y).1 hy).le

theorem signBit_roundDyadic (neg : Bool) (m : Nat) (e : Int) : signBit (roundDyadic neg m e) = neg := by
  have := infMagnitude_lt
  unfold roundDyadic
  split
  · exact signBit_ofMagnitude (by decide)
  · exact signBit_ofMagnitude (by omega)

theorem isNaN_roundDyadic (neg : Bool) (m : Nat) (e : Int) : isNaN (roundDyadic neg m e) = false := by
  have := infMagnitude_lt
  rw [isNaN_eq_false_iff]
  by_cases hm : m = 0
  · rw [hm, roundDyadic, if_pos rfl, signedZero, magnitude_ofMagnitude (by decide)]
    exact Nat.zero_le _
  · rw [roundDyadic_eq hm, magnitude_ofMagnitude (by omega)]
    exact min_le_right _ _

/-! ### Monotone rounding -/

/-- `r` is a number, and it passes no finite value that `exact` does not pass. -/
def MonotoneRounding (exact : ℚ) (r : F64) : Prop :=
  isNaN r = false ∧ ∀ y, isFinite y = true →
    (exact ≤ ratOf y → orderKey r ≤ orderKey y) ∧ (ratOf y ≤ exact → orderKey y ≤ orderKey r)

/-- Either sign from the two bounds on the magnitude, the sign of `r` being that of `exact`. -/
theorem monotoneRounding_of_magnitude {v : ℚ} {neg : Bool} {r : F64} (hv : 0 ≤ v) (hnum : isNaN r = false)
    (hsign : signBit r = neg) (hle : ∀ y, isFinite y = true → v ≤ |ratOf y| → magnitude r ≤ magnitude y)
    (hge : ∀ y, isFinite y = true → |ratOf y| ≤ v → magnitude y ≤ magnitude r) :
    MonotoneRounding (if neg then -v else v) r := by
  refine ⟨hnum, fun y hy => ?_⟩
  have hzero := hle f0 (by decide)
  rw [ratOf_f0, abs_zero, show magnitude f0 = 0 by decide] at hzero
  have hley := hle y hy
  have hgey := hge y hy
  have hy0 := abs_nonneg (ratOf y)
  have hyz := abs_ratOf_eq_zero_iff y
  rw [ratOf_eq_abs y, orderKey_eq r, orderKey_eq y, hsign]
  cases neg <;> cases signBit y <;> simp only [if_true, if_false, Bool.false_eq_true]
  case false.false =>
    exact ⟨fun h => Int.ofNat_le.2 (hley h), fun h => Int.ofNat_le.2 (hgey h)⟩
  case true.true =>
    exact ⟨fun h => neg_le_neg (Int.ofNat_le.2 (hgey (neg_le_neg_iff.1 h))),
      fun h => neg_le_neg (Int.ofNat_le.2 (hley (neg_le_neg_iff.1 h)))⟩
  case false.true =>
    refine ⟨fun h => ?_, fun _ => by omega⟩
    have := hzero (by linarith)
    have := hyz.1 (by linarith)
    omega
  case true.false =>
    refine ⟨fun _ => by omega, fun h => ?_⟩
    have := hzero (by linarith)
    have := hyz.1 (by linarith)
    omega

theorem roundDyadic_monotone (neg : Bool) (m : Nat) (e : Int) :
    MonotoneRounding ((signedInt neg m : ℚ) * 2 ^ e) (roundDyadic neg m e) := by
  have h : (signedInt neg m : ℚ) * 2 ^ e = if neg then -((m : ℚ) * 2 ^ e) else (m : ℚ) * 2 ^ e := by
    unfold signedInt; cases neg <;> simp
  rw [h]
  exact monotoneRounding_of_magnitude (by positivity) (isNaN_roundDyadic neg m e) (signBit_roundDyadic neg m e)
    (fun y _ => magnitude_roundDyadic_le neg m) (fun y hy => le_magnitude_roundDyadic neg m hy)

theorem signedZero_monotone (neg : Bool) : MonotoneRounding 0 (signedZero neg) := by
  have h := roundDyadic_monotone neg 0 0
  rwa [show signedInt neg 0 = 0 by cases neg <;> rfl, Int.cast_zero, zero_mul] at h

/-! ### The operations on finite values -/

/-- A pattern's number over any exponent that is not above its own. -/
theorem ratOf_eq_of_le {x : F64} {e : Int} (h : e ≤ exponent x) :
    ratOf x = ((signedInt (signBit x) (significand x) * 2 ^ (exponent x - e).toNat : Int) : ℚ) * 2 ^ e := by
  unfold ratOf
  push_cast
  rw [mul_assoc, ← zpow_natCast, ← zpow_add₀ two_ne_zero]
  congr 2
  omega

theorem signedInt_natAbs (n : Int) : signedInt (decide (n < 0)) n.natAbs = n := by
  unfold signedInt
  split
  case isTrue h => exact Int.neg_eq_comm.1 (Int.ofNat_natAbs_of_nonpos (of_decide_eq_true h).le).symm
  case isFalse h => exact Int.natAbs_of_nonneg (by simpa using h)

/-- A signed significand rounded, with a zero of either sign for 0. -/
theorem roundSigned_monotone (n : Int) (e : Int) (zeroSign : Bool) :
    MonotoneRounding ((n : ℚ) * 2 ^ e)
      (if n = 0 then signedZero zeroSign else roundDyadic (decide (n < 0)) n.natAbs e) := by
  split
  case isTrue h => rw [h, Int.cast_zero, zero_mul]; exact signedZero_monotone _
  case isFalse =>
    have h := roundDyadic_monotone (decide (n < 0)) n.natAbs e
    rwa [signedInt_natAbs] at h

theorem addFinite_monotone (a b : F64) : MonotoneRounding (ratOf a + ratOf b) (addFinite a b) := by
  rw [ratOf_eq_of_le (min_le_left (exponent a) (exponent b)), ratOf_eq_of_le (min_le_right (exponent a) (exponent b)),
    ← add_mul, ← Int.cast_add]
  exact roundSigned_monotone _ _ _

theorem fadd_monotone {a b : F64} (ha : isFinite a = true) (hb : isFinite b = true) :
    MonotoneRounding (ratOf a + ratOf b) (fadd a b) := by
  have h : fadd a b = addFinite a b := by
    simp [fadd, addNumber, isNaN_of_isFinite, isInf_of_isFinite, ha, hb]
  exact h ▸ addFinite_monotone a b

theorem fsub_monotone {a b : F64} (ha : isFinite a = true) (hb : isFinite b = true) :
    MonotoneRounding (ratOf a - ratOf b) (fsub a b) := by
  have h : fsub a b = addFinite a (flipSign b) := by
    simp [fsub, addNumber, isNaN_of_isFinite, isInf_of_isFinite, ha, hb]
  rw [h, sub_eq_add_neg, ← ratOf_flipSign]
  exact addFinite_monotone a (flipSign b)

theorem signedInt_mul (s t : Bool) (m n : Nat) : signedInt s m * signedInt t n = signedInt (s != t) (m * n) := by
  unfold signedInt; cases s <;> cases t <;> simp

theorem fmul_monotone {a b : F64} (ha : isFinite a = true) (hb : isFinite b = true) :
    MonotoneRounding (ratOf a * ratOf b) (fmul a b) := by
  have h : fmul a b =
      roundDyadic (signBit a != signBit b) (significand a * significand b) (exponent a + exponent b) := by
    simp [fmul, isNaN_of_isFinite, isInf_of_isFinite, ha, hb]
  have hexact : ratOf a * ratOf b =
      (signedInt (signBit a != signBit b) (significand a * significand b) : ℚ) * 2 ^ (exponent a + exponent b) := by
    unfold ratOf
    rw [← signedInt_mul, zpow_add₀ two_ne_zero]
    push_cast
    ring
  rw [h, hexact]
  exact roundDyadic_monotone _ _ _

end Sys2Proof.Machine

/-! PROOFS. Division rounds monotonically as well: the bit that stands for the remainder puts the quotient on the same
side of every binary64 value as the exact ratio (00_scope.md R14, R17). -/

namespace Sys2Proof.Machine

/-! ### The quotient with its remainder bit -/

/-- The places `roundRatio` shifts the dividend by. -/
def ratioShift (n d : Nat) : Nat := d.log2 + 56 - n.log2

/-- The significand that `roundRatio` rounds: twice the shifted quotient, and 1 where a remainder is left. -/
def ratioSignificand (n d : Nat) : Nat :=
  2 * (n * 2 ^ ratioShift n d / d) + if n * 2 ^ ratioShift n d % d = 0 then 0 else 1

theorem roundRatio_eq (neg : Bool) (n d : Nat) (e : Int) :
    roundRatio neg n d e = roundDyadic neg (ratioSignificand n d) (e - ratioShift n d - 1) := rfl

theorem ratioSignificand_le {n d s : Nat} (h : n * 2 ^ ratioShift n d ≤ s * d) : ratioSignificand n d ≤ 2 * s := by
  have hle : n * 2 ^ ratioShift n d / d ≤ s := Nat.div_le_of_le_mul (h.trans_eq (mul_comm s d))
  have hdiv := Nat.div_add_mod (n * 2 ^ ratioShift n d) d
  unfold ratioSignificand
  obtain hlt | heq := hle.lt_or_eq
  · split <;> omega
  · rw [heq, mul_comm d s] at hdiv
    rw [heq, if_pos (by omega), add_zero]

theorem le_ratioSignificand {n d s : Nat} (hd : 0 < d) (h : s * d ≤ n * 2 ^ ratioShift n d) :
    2 * s ≤ ratioSignificand n d := by
  have hle : s ≤ n * 2 ^ ratioShift n d / d := (Nat.le_div_iff_mul_le hd).2 h
  unfold ratioSignificand
  omega

theorem le_shifted_dividend {n d : Nat} (hn : n ≠ 0) : 2 ^ 55 * d ≤ n * 2 ^ ratioShift n d :=
  calc 2 ^ 55 * d ≤ 2 ^ 55 * 2 ^ (d.log2 + 1) := Nat.mul_le_mul_left _ Nat.lt_log2_self.le
    _ = 2 ^ (d.log2 + 56) := by rw [← pow_add]; congr 1; omega
    _ ≤ 2 ^ (n.log2 + ratioShift n d) := Nat.pow_le_pow_right two_pos (by unfold ratioShift; omega)
    _ = 2 ^ n.log2 * 2 ^ ratioShift n d := pow_add _ _ _
    _ ≤ n * 2 ^ ratioShift n d := Nat.mul_le_mul_right _ (Nat.log2_self_le hn)

/-- The ratio over the power of two that the quotient counts. -/
theorem ratio_eq (n d : Nat) (e : Int) :
    (n : ℚ) / d * 2 ^ e = ((n * 2 ^ ratioShift n d : Nat) : ℚ) / d * 2 ^ (e - ratioShift n d) := by
  rw [zpow_sub₀ two_ne_zero, zpow_natCast]
  push_cast
  field_simp

theorem ratioSignificand_mul_zpow (n d : Nat) (e : Int) :
    (ratioSignificand n d : ℚ) * 2 ^ (e - ratioShift n d - 1) =
      (ratioSignificand n d : ℚ) / 2 * 2 ^ (e - ratioShift n d) := by
  rw [zpow_sub_one₀ two_ne_zero]
  ring

/-- A number that has a code is a multiple of the quotient's unit, or so small that both sides are above it. -/
theorem Codes.multiple_or_lt {N : Int} {w : ℚ} (hN : Codes N w) (e : Int) :
    (∃ s : Nat, w = (s : ℚ) * 2 ^ e) ∨ w < 2 ^ 52 * 2 ^ e := by
  obtain ⟨q, r, -, hr, -, -, rfl⟩ := hN
  obtain hle | hlt := le_or_gt e q
  · exact .inl ⟨_, mul_zpow_eq_of_le r hle⟩
  · have := mul_zpow_lt_of_exponent_lt hr (le_refl (2 ^ 52)) hlt
    exact .inr (by exact_mod_cast this)

theorem Codes.ratioSignificand_le {N : Int} {w : ℚ} (hN : Codes N w) {n d : Nat} (hd : 0 < d) {e : Int}
    (h : (n : ℚ) / d * 2 ^ e ≤ w) : (ratioSignificand n d : ℚ) * 2 ^ (e - ratioShift n d - 1) ≤ w := by
  have hd' : (0 : ℚ) < d := Nat.cast_pos.2 hd
  rw [ratio_eq] at h
  rw [ratioSignificand_mul_zpow]
  obtain ⟨s, rfl⟩ | hlt := hN.multiple_or_lt (e - ratioShift n d)
  · rw [mul_le_mul_iff_left₀ (zpow_pos two_pos _), div_le_iff₀ hd'] at h
    have := Machine.ratioSignificand_le (s := s) (by exact_mod_cast h)
    have : (ratioSignificand n d : ℚ) ≤ 2 * s := by exact_mod_cast this
    gcongr
    linarith
  · have hn : n = 0 := by
      by_contra hn
      have hbig : (2 : ℚ) ^ 55 * d ≤ ((n * 2 ^ ratioShift n d : Nat) : ℚ) := by exact_mod_cast le_shifted_dividend hn
      have hlow := (le_div_iff₀ hd').2 hbig
      have := lt_of_mul_lt_mul_right (h.trans_lt hlt) (zpow_pos two_pos _).le
      linarith
    subst hn
    simpa [ratioSignificand] using h

theorem Codes.le_ratioSignificand {N : Int} {w : ℚ} (hN : Codes N w) {n d : Nat} (hd : 0 < d) {e : Int}
    (h : w ≤ (n : ℚ) / d * 2 ^ e) : w ≤ (ratioSignificand n d : ℚ) * 2 ^ (e - ratioShift n d - 1) := by
  have hd' : (0 : ℚ) < d := Nat.cast_pos.2 hd
  by_cases hn : n = 0
  case pos => subst hn; simpa [ratioSignificand] using h
  rw [ratio_eq] at h
  rw [ratioSignificand_mul_zpow]
  obtain ⟨s, rfl⟩ | hlt := hN.multiple_or_lt (e - ratioShift n d)
  · rw [mul_le_mul_iff_left₀ (zpow_pos two_pos _), le_div_iff₀ hd'] at h
    have := Machine.le_ratioSignificand hd (s := s) (by exact_mod_cast h)
    have : (2 : ℚ) * s ≤ ratioSignificand n d := by exact_mod_cast this
    gcongr
    linarith
  · have hbig : 2 * 2 ^ 55 ≤ ratioSignificand n d := Machine.le_ratioSignificand hd (le_shifted_dividend hn)
    have hbig : (2 : ℚ) * 2 ^ 55 ≤ ratioSignificand n d := by exact_mod_cast hbig
    refine hlt.le.trans ?_
    gcongr
    linarith

/-! ### The operation -/

theorem roundRatio_monotone (neg : Bool) (n : Nat) {d : Nat} (hd : 0 < d) (e : Int) :
    MonotoneRounding (if neg then -((n : ℚ) / d * 2 ^ e) else (n : ℚ) / d * 2 ^ e) (roundRatio neg n d e) := by
  rw [roundRatio_eq]
  exact monotoneRounding_of_magnitude (by positivity) (isNaN_roundDyadic neg _ _) (signBit_roundDyadic neg _ _)
    (fun y _ h => magnitude_roundDyadic_le neg _ ((codes_magnitude y).ratioSignificand_le hd h))
    (fun y hy h => le_magnitude_roundDyadic neg _ hy ((codes_magnitude y).le_ratioSignificand hd h))

theorem significand_pos {x : F64} (h : ratOf x ≠ 0) : 0 < significand x := by
  rw [Nat.pos_iff_ne_zero]
  intro h0
  rw [← abs_ne_zero, abs_ratOf, h0] at h
  simp at h

theorem fdiv_monotone {a b : F64} (ha : isFinite a = true) (hb : isFinite b = true) (h0 : ratOf b ≠ 0) :
    MonotoneRounding (ratOf a / ratOf b) (fdiv a b) := by
  have hzero : isZero b = false := by
    rw [← Bool.not_eq_true, isZero, beq_iff_eq, ← abs_ratOf_eq_zero_iff, abs_eq_zero]
    exact h0
  have h : fdiv a b =
      roundRatio (signBit a != signBit b) (significand a) (significand b) (exponent a - exponent b) := by
    simp [fdiv, isNaN_of_isFinite, isInf_of_isFinite, ha, hb, hzero]
  have hexact : ratOf a / ratOf b =
      let v : ℚ := (significand a : ℚ) / significand b * 2 ^ (exponent a - exponent b)
      if signBit a != signBit b then -v else v := by
    have hv : (significand a : ℚ) / significand b * 2 ^ (exponent a - exponent b) = |ratOf a| / |ratOf b| := by
      rw [abs_ratOf, abs_ratOf, zpow_sub₀ two_ne_zero, mul_div_mul_comm]
    dsimp only
    rw [hv]; conv_lhs => rw [ratOf_eq_abs a, ratOf_eq_abs b]
    cases signBit a <;> cases signBit b <;> simp [neg_div, div_neg]
  rw [h, hexact]
  exact roundRatio_monotone _ _ (significand_pos h0) _

end Sys2Proof.Machine

/-! PROOFS. Bounds by powers of two through the operations, and from these that the band-limited waveforms clamp a value
that is no NaN (41_oscillators.md R186 to R189). -/

namespace Sys2Proof.Machine

/-! ### Finite values between powers of two -/

/-- `x` is finite and its number is in `[-2 ^ k, 2 ^ k]`. -/
def AtMost (k : Nat) (x : F64) : Prop := isFinite x = true ∧ |ratOf x| ≤ 2 ^ k

/-- The pattern of `2 ^ k`. -/
def powerPattern (k : Nat) : F64 := ofMagnitude false ((1023 + k) * 2 ^ 52)

theorem isFinite_powerPattern {k : Nat} (hk : k ≤ 1023) : isFinite (powerPattern k) = true := by
  rw [isFinite_iff, powerPattern, magnitude_ofMagnitude (by omega), infMagnitude]
  omega

theorem ratOf_powerPattern {k : Nat} (hk : k ≤ 1023) : ratOf (powerPattern k) = 2 ^ k := by
  have hmag : magnitude (powerPattern k) = (1023 + k) * 2 ^ 52 := magnitude_ofMagnitude (by omega)
  have hsign : signBit (powerPattern k) = false := signBit_ofMagnitude (by omega)
  have hexp : expField (powerPattern k) = 1023 + k := by rw [expField_eq, hmag]; omega
  have hfrac : fracField (powerPattern k) = 0 := by rw [fracField_eq, hmag]; omega
  have hexponent : exponent (powerPattern k) = (k : Int) - 52 := by unfold exponent; rw [hexp]; omega
  rw [ratOf_eq_abs, hsign, if_neg Bool.false_ne_true, abs_ratOf, significand, hexp, hfrac, hexponent, if_neg (by omega),
    zpow_sub₀ two_ne_zero, zpow_natCast]
  norm_num
  ring

theorem AtMost.mono {j k : Nat} {x : F64} (h : AtMost j x) (hjk : j ≤ k) : AtMost k x :=
  ⟨h.1, h.2.trans (pow_le_pow_right₀ one_le_two hjk)⟩

theorem atMost_of_unit {x : F64} (hx : isFinite x = true) (h0 : -1 ≤ ratOf x) (h1 : ratOf x ≤ 1) : AtMost 0 x :=
  ⟨hx, by rw [pow_zero]; exact abs_le.2 ⟨h0, h1⟩⟩

/-- Rounding keeps a bound that is a power of two, so the result is finite too. -/
theorem MonotoneRounding.atMost {v : ℚ} {r : F64} (h : MonotoneRounding v r) {k : Nat} (hk : k ≤ 1023)
    (hv : |v| ≤ 2 ^ k) : AtMost k r := by
  obtain ⟨-, hbound⟩ := h
  have hfin := isFinite_powerPattern hk
  obtain ⟨hlow, hhigh⟩ := abs_le.1 hv
  have hle := (hbound _ hfin).1 (by rwa [ratOf_powerPattern hk])
  have hge := (hbound (flipSign (powerPattern k)) (by rwa [isFinite_flipSign])).2
    (by rwa [ratOf_flipSign, ratOf_powerPattern hk])
  constructor
  · rw [isFinite_iff] at hfin ⊢
    rw [orderKey_flipSign] at hge
    have hkey : orderKey (powerPattern k) ≤ magnitude (powerPattern k) := by rw [orderKey_eq]; split <;> omega
    have hmag : magnitude r = orderKey r ∨ magnitude r = -orderKey r := by rw [orderKey_eq]; split <;> omega
    omega
  · rw [← ratOf_le_iff, ratOf_flipSign, ratOf_powerPattern hk] at hge
    rw [← ratOf_le_iff, ratOf_powerPattern hk] at hle
    exact abs_le.2 ⟨hge, hle⟩

theorem MonotoneRounding.le {v : ℚ} {r y : F64} (h : MonotoneRounding v r) (hy : isFinite y = true) (hv : v ≤ ratOf y) :
    ratOf r ≤ ratOf y := (ratOf_le_iff r y).2 ((h.2 y hy).1 hv)

theorem MonotoneRounding.ge {v : ℚ} {r y : F64} (h : MonotoneRounding v r) (hy : isFinite y = true) (hv : ratOf y ≤ v) :
    ratOf y ≤ ratOf r := (ratOf_le_iff y r).2 ((h.2 y hy).2 hv)

theorem AtMost.fadd {k : Nat} {a b : F64} (ha : AtMost k a) (hb : AtMost k b) (hk : k < 1023) :
    AtMost (k + 1) (fadd a b) := by
  refine (fadd_monotone ha.1 hb.1).atMost hk ((abs_add_le _ _).trans ?_)
  rw [pow_succ, mul_two]
  exact add_le_add ha.2 hb.2

theorem AtMost.fsub {k : Nat} {a b : F64} (ha : AtMost k a) (hb : AtMost k b) (hk : k < 1023) :
    AtMost (k + 1) (fsub a b) := by
  refine (fsub_monotone ha.1 hb.1).atMost hk ((abs_sub _ _).trans ?_)
  rw [pow_succ, mul_two]
  exact add_le_add ha.2 hb.2

theorem AtMost.fmul {j k : Nat} {a b : F64} (ha : AtMost j a) (hb : AtMost k b) (hk : j + k ≤ 1023) :
    AtMost (j + k) (fmul a b) := by
  refine (fmul_monotone ha.1 hb.1).atMost hk ?_
  rw [abs_mul, pow_add]
  exact mul_le_mul ha.2 hb.2 (abs_nonneg _) (by positivity)

/-- A quotient by a number of at least the dividend's size. -/
theorem atMost_fdiv {a b : F64} (ha : isFinite a = true) (hb : isFinite b = true) (hpos : 0 < ratOf b)
    (h : |ratOf a| ≤ ratOf b) : AtMost 0 (fdiv a b) := by
  refine (fdiv_monotone ha hb hpos.ne').atMost (by decide) ?_
  rw [abs_div, abs_of_pos hpos, pow_zero]
  exact (div_le_one hpos).2 h

theorem atMost_f0 : AtMost 0 f0 := ⟨by decide, by rw [ratOf_f0]; norm_num⟩

theorem atMost_f1 : AtMost 0 f1 := ⟨by decide, by rw [ratOf_f1]; norm_num⟩

theorem atMost_fNeg1 : AtMost 0 fNeg1 := by
  rw [show fNeg1 = flipSign f1 by decide]
  exact ⟨by decide, by rw [ratOf_flipSign, ratOf_f1]; norm_num⟩

theorem ratOf_f2 : ratOf f2 = 2 := by
  rw [show f2 = powerPattern 1 by decide, ratOf_powerPattern (by decide), pow_one]

theorem atMost_f2 : AtMost 1 f2 := ⟨by decide, by rw [ratOf_f2]; norm_num⟩

/-! ### Numbers in `[0, 1]` -/

/-- `x` is finite and its number is in `[0, 1]`. -/
def InUnit (x : F64) : Prop := isFinite x = true ∧ 0 ≤ ratOf x ∧ ratOf x ≤ 1

theorem InUnit.atMost {x : F64} (h : InUnit x) : AtMost 0 x := atMost_of_unit h.1 (by linarith [h.2.1]) h.2.2

theorem inUnit_of_fle {x : F64} (h0 : fle f0 x = true) (h1 : fle x f1 = true) : InUnit x := by
  obtain ⟨-, -, h0⟩ := (fle_iff f0 x).1 h0
  obtain ⟨-, -, h1⟩ := (fle_iff x f1).1 h1
  refine ⟨?_, by rwa [← ratOf_f0, ratOf_le_iff], by rwa [← ratOf_f1, ratOf_le_iff]⟩
  rw [show orderKey f0 = 0 by decide, orderKey_eq x] at h0
  rw [show orderKey f1 = 1023 * 2 ^ 52 by decide, orderKey_eq x] at h1
  rw [isFinite_iff, infMagnitude]
  split at h0
  case isTrue => omega
  case isFalse hpos => rw [if_neg hpos] at h1; omega

theorem IsPhase.inUnit {p : F64} (h : IsPhase p) : InUnit p := by
  obtain ⟨h0, h1⟩ := h
  obtain ⟨hp, h1Num, hlt⟩ := (flt_iff p f1).1 h1
  exact inUnit_of_fle h0 ((fle_iff p f1).2 ⟨hp, h1Num, hlt.le⟩)

theorem MonotoneRounding.inUnit {v : ℚ} {r : F64} (h : MonotoneRounding v r) (h0 : 0 ≤ v) (h1 : v ≤ 1) : InUnit r := by
  refine ⟨(h.atMost (k := 0) (by decide) (by rw [pow_zero]; exact abs_le.2 ⟨by linarith, h1⟩)).1, ?_, ?_⟩
  · rw [← ratOf_f0] at h0 ⊢
    exact h.ge (by decide) h0
  · rw [← ratOf_f1] at h1 ⊢
    exact h.le (by decide) h1

theorem InUnit.fsub_f1 {x : F64} (h : InUnit x) : InUnit (fsub f1 x) := by
  obtain ⟨hx, h0, h1⟩ := h
  have hsub := fsub_monotone (a := f1) (by decide) hx
  rw [ratOf_f1] at hsub
  exact hsub.inUnit (by linarith) (by linarith)

/-! ### `frac` of a value in `[0, 2]` -/

/-- The floor of a finite value is that of its number (00_scope.md R15). -/
theorem floorInt_eq (x : F64) : floorInt x = ⌊ratOf x⌋ := by
  unfold floorInt ratOf
  dsimp only
  split
  case isTrue h =>
    rw [← Int.toNat_of_nonneg h, zpow_natCast, Int.toNat_natCast, show ((2 : ℚ) ^ (exponent x).toNat) =
      ((2 ^ (exponent x).toNat : Int) : ℚ) by push_cast; rfl, ← Int.cast_mul, Int.floor_intCast]
  case isFalse h =>
    have he : exponent x = -((-exponent x).toNat : Int) := by omega
    conv_rhs => rw [he, zpow_neg, zpow_natCast, ← div_eq_mul_inv]
    rw [show ((2 : ℚ) ^ (-exponent x).toNat) = ((2 ^ (-exponent x).toNat : Nat) : ℚ) by push_cast; rfl,
      Rat.floor_intCast_div_natCast]
    push_cast
    rfl

theorem ratOf_ofInt_small {n : Int} (h0 : 0 ≤ n) (h2 : n ≤ 2) : isFinite (ofInt n) = true ∧ ratOf (ofInt n) = n := by
  obtain rfl | rfl | rfl : n = 0 ∨ n = 1 ∨ n = 2 := by omega
  · rw [show ofInt 0 = f0 by decide, ratOf_f0]; exact ⟨by decide, by norm_num⟩
  · rw [show ofInt 1 = f1 by decide, ratOf_f1]; exact ⟨by decide, by norm_num⟩
  · rw [show ofInt 2 = f2 by decide, ratOf_f2]; exact ⟨by decide, by norm_num⟩

theorem ratOf_ffloor {x : F64} (hx : isFinite x = true) (h0 : 0 ≤ ratOf x) (h2 : ratOf x ≤ 2) :
    isFinite (ffloor x) = true ∧ ratOf (ffloor x) = ⌊ratOf x⌋ := by
  unfold ffloor
  split
  · rw [floorInt_eq]
    refine ratOf_ofInt_small (Int.floor_nonneg.2 h0) ?_
    exact_mod_cast (Int.floor_le (ratOf x)).trans h2
  case isFalse h =>
    have hzero : ratOf x = 0 := by
      rw [← abs_eq_zero, abs_ratOf_eq_zero_iff]
      simpa [hx, isZero] using h
    exact ⟨hx, by rw [hzero, Int.floor_zero, Int.cast_zero]⟩

theorem inUnit_frac {x : F64} (hx : isFinite x = true) (h0 : 0 ≤ ratOf x) (h2 : ratOf x ≤ 2) : InUnit (frac x) := by
  obtain ⟨hfin, hfloor⟩ := ratOf_ffloor hx h0 h2
  have hsub := fsub_monotone hx hfin
  rw [hfloor] at hsub
  exact hsub.inUnit (by linarith [Int.floor_le (ratOf x)]) (by linarith [Int.lt_floor_add_one (ratOf x)])

/-- The shifted phase of R188. -/
theorem InUnit.frac_fadd {a b : F64} (ha : InUnit a) (hb : InUnit b) : InUnit (frac (fadd a b)) := by
  obtain ⟨hafin, ha0, ha1⟩ := ha
  obtain ⟨hbfin, hb0, hb1⟩ := hb
  have hadd := fadd_monotone hafin hbfin
  have hfin := (hadd.atMost (k := 1) (by decide) (abs_le.2 ⟨by linarith, by linarith⟩)).1
  refine inUnit_frac hfin ?_ ?_
  · rw [← ratOf_f0]
    exact hadd.ge (by decide) (by rw [ratOf_f0]; linarith)
  · rw [← ratOf_f2]
    exact hadd.le (by decide) (by rw [ratOf_f2]; linarith)

/-! ### The correction polynomial, whatever the increment -/

theorem isNaN_nanResult (op : FOp) (a b : F64) : isNaN (nanResult op a b) = true := by
  have hfrac : ∀ x : F64, fracField x < 2 ^ 52 := fun x => Nat.mod_lt _ (by decide)
  have := hfrac (Config.nanBits op.number a b)
  rw [← Bool.not_eq_false, isNaN_eq_false_iff, nanResult, nanOfBits, magnitude_ofMagnitude] <;>
    unfold infMagnitude <;> split <;> omega

theorem isFinite_or_eq_signedInf {x : F64} (h : isNaN x = false) :
    isFinite x = true ∨ x = signedInf true ∨ x = signedInf false := by
  rw [isNaN_eq_false_iff] at h
  obtain hlt | heq := h.lt_or_eq
  · exact .inl ((isFinite_iff x).2 hlt)
  · right
    have hx := x.isLt
    simp only [magnitude, infMagnitude] at heq
    obtain htop | htop : x.toNat = 2 ^ 63 + infMagnitude ∨ x.toNat = infMagnitude := by
      simp only [infMagnitude]; omega
    · exact .inl (BitVec.eq_of_toNat_eq (htop.trans (by decide)))
    · exact .inr (BitVec.eq_of_toNat_eq (htop.trans (by decide)))

theorem fdiv_signedInf {t : F64} (ht : isFinite t = true) (neg : Bool) :
    fdiv t (signedInf neg) = signedZero (signBit t != neg) := by
  have hNum : isNaN (signedInf neg) = false := by cases neg <;> decide
  have hInf : isInf (signedInf neg) = true := by cases neg <;> decide
  have hSign : signBit (signedInf neg) = neg := by cases neg <;> decide
  simp [fdiv, isNaN_of_isFinite ht, isInf_of_isFinite ht, hNum, hInf, hSign]

theorem flt_signedInf {t : F64} (ht : isFinite t = true) : flt t (signedInf false) = true := by
  have hlt := (isFinite_iff t).1 ht
  refine (flt_iff _ _).2 ⟨isNaN_of_isFinite ht, by decide, ?_⟩
  rw [show orderKey (signedInf false) = infMagnitude by decide, orderKey_eq]
  split <;> omega

theorem flt_signedInf_false {t : F64} (ht : isFinite t = true) : flt (signedInf false) t = false := by
  have hlt := (isFinite_iff t).1 ht
  rw [← Bool.not_eq_true, flt_iff, show orderKey (signedInf false) = infMagnitude by decide, orderKey_eq]
  split <;> omega

/-- The quotient after the step: `t < dt`. -/
theorem atMost_fdiv_of_flt {t dt : F64} (ht : InUnit t) (h : flt t dt = true) : AtMost 0 (fdiv t dt) := by
  obtain ⟨htfin, ht0, -⟩ := ht
  obtain ⟨-, hNum, hlt⟩ := (flt_iff t dt).1 h
  obtain hfin | rfl | rfl := isFinite_or_eq_signedInf hNum
  · rw [← ratOf_lt_iff] at hlt
    exact atMost_fdiv htfin hfin (by linarith) (by rw [abs_of_nonneg ht0]; exact hlt.le)
  all_goals
    rw [fdiv_signedInf htfin]
    exact (signedZero_monotone _).atMost (by decide) (by norm_num)

/-- The quotient before the step: `1.0 - dt < t`. The difference is rounded, so `1 - dt < t` holds of the numbers, and
`-dt` bounds the rounded `t - 1.0`. -/
theorem atMost_fdiv_fsub_of_flt {t dt : F64} (ht : InUnit t) (hnot : ¬ flt t dt = true)
    (h : flt (fsub f1 dt) t = true) : AtMost 0 (fdiv (fsub t f1) dt) := by
  obtain ⟨htfin, ht0, ht1⟩ := ht
  obtain ⟨hsubNum, -, hlt⟩ := (flt_iff _ t).1 h
  have hNum : isNaN dt = false := by
    by_contra hnan
    rw [fsub, Bool.eq_true_of_not_eq_false hnan, Bool.or_true, if_pos rfl] at hsubNum
    exact absurd ((isNaN_nanResult _ _ _).symm.trans hsubNum) (by decide)
  obtain hfin | rfl | rfl := isFinite_or_eq_signedInf hNum
  case inr.inl =>
    rw [show fsub f1 (signedInf true) = signedInf false by decide, flt_signedInf_false htfin] at h
    exact absurd h (by decide)
  case inr.inr => exact absurd (flt_signedInf htfin) hnot
  have hless : 1 - ratOf dt < ratOf t := by
    by_contra hge
    have := ((fsub_monotone (a := f1) (by decide) hfin).2 t htfin).2 (by rw [ratOf_f1]; linarith)
    omega
  have hsub := fsub_monotone (b := f1) htfin (by decide)
  rw [ratOf_f1] at hsub
  have hsubFin := (hsub.atMost (k := 0) (by decide) (abs_le.2 ⟨by norm_num; linarith, by norm_num; linarith⟩)).1
  have hlow := hsub.ge (y := flipSign dt) (by rwa [isFinite_flipSign]) (by rw [ratOf_flipSign]; linarith)
  have hhigh := hsub.le (y := f0) (by decide) (by rw [ratOf_f0]; linarith)
  rw [ratOf_flipSign] at hlow
  rw [ratOf_f0] at hhigh
  exact atMost_fdiv hsubFin hfin (by linarith) (abs_le.2 ⟨hlow, by linarith⟩)

theorem atMost_blep {t : F64} (ht : InUnit t) (dt : F64) : AtMost 3 (blep t dt) := by
  unfold blep
  split
  case isTrue h =>
    have hu := atMost_fdiv_of_flt ht h
    have hsquare := (hu.fmul hu (by decide)).mono (Nat.zero_le 1)
    exact ((hu.fadd hu (by decide)).fsub hsquare (by decide)).fsub (atMost_f1.mono (Nat.zero_le 2)) (by decide)
  case isFalse hnot =>
    split
    case isTrue h =>
      have hu := atMost_fdiv_fsub_of_flt ht hnot h
      have hsum := ((hu.fmul hu (by decide)).fadd hu (by decide)).fadd (hu.mono (Nat.zero_le 1)) (by decide)
      exact hsum.fadd (atMost_f1.mono (Nat.zero_le 2)) (by decide)
    case isFalse => exact atMost_f0.mono (Nat.zero_le 3)

/-! ### The waveforms before the clamp -/

theorem AtMost.inRange_fclamp {k : Nat} {x : F64} (h : AtMost k x) : inRange fNeg1 f1 (fclamp x fNeg1 f1) = true :=
  Machine.inRange_fclamp (by decide) (isNaN_of_isFinite h.1)

theorem atMost_naiveSaw {p : F64} (hp : InUnit p) : AtMost 2 (naiveSaw p) :=
  (atMost_f2.fmul hp.atMost (by decide)).fsub (atMost_f1.mono (Nat.zero_le 1)) (by decide)

theorem atMost_naiveSquare (p : F64) : AtMost 0 (naiveSquare p) := by
  unfold naiveSquare
  split
  · exact atMost_f1
  · exact atMost_fNeg1

theorem atMost_naivePulse (p pw : F64) : AtMost 0 (naivePulse p pw) := by
  unfold naivePulse
  split
  · exact atMost_f1
  · exact atMost_fNeg1

/-- The two corrections of R188, one at each edge of a waveform of two levels. -/
theorem atMost_edges {x p t : F64} (hx : AtMost 0 x) (hp : InUnit p) (ht : InUnit t) (dt : F64) :
    AtMost 5 (fsub (fadd x (blep p dt)) (blep t dt)) := by
  have hfirst : AtMost 4 (fadd x (blep p dt)) := (hx.mono (Nat.zero_le 3)).fadd (atMost_blep hp dt) (by decide)
  exact hfirst.fsub ((atMost_blep ht dt).mono (by decide)) (by decide)

theorem inUnit_fHalf : InUnit fHalf := inUnit_of_fle (by decide) (by decide)

theorem inUnit_of_pulseWidth {pw : F64} (h : inRange (dec 1 2) (dec 99 2) pw = true) : InUnit pw := by
  obtain ⟨hlo, hhi⟩ := (inRange_iff _ _ pw).1 h
  obtain ⟨-, hNum, hlo⟩ := (fle_iff _ pw).1 hlo
  obtain ⟨-, -, hhi⟩ := (fle_iff pw _).1 hhi
  have h0 : orderKey f0 ≤ orderKey (dec 1 2) := by decide +kernel
  have h1 : orderKey (dec 99 2) ≤ orderKey f1 := by decide +kernel
  exact inUnit_of_fle ((fle_iff f0 pw).2 ⟨by decide, hNum, h0.trans hlo⟩)
    ((fle_iff pw f1).2 ⟨hNum, by decide, hhi.trans h1⟩)

/-- Settles O30: each waveform is the clamp of a finite value, the correction being at most 8 for every increment. -/
theorem polyBlepRange : Obligations.PolyBlepRange := by
  intro p dt pw hphase hpw
  have hp := hphase.inUnit
  refine ⟨?saw, ?square, ?pulse⟩
  case saw =>
    exact (((atMost_naiveSaw hp).mono (by decide)).fsub (atMost_blep hp dt) (by decide)).inRange_fclamp
  case square =>
    exact (atMost_edges (atMost_naiveSquare p) hp (hp.frac_fadd inUnit_fHalf) dt).inRange_fclamp
  case pulse =>
    have hshift := hp.frac_fadd (inUnit_of_pulseWidth hpw).fsub_f1
    exact (atMost_edges (atMost_naivePulse p pw) hp hshift dt).inRange_fclamp

end Sys2Proof.Machine

/-! PROOFS. Reads of the voice filter's derived registers: what a read of any class R register answers, when `FILT_STATUS`
is set, and the range of `CUTOFF_EFF` (42_filters.md R237, R239, R246, R248). -/

namespace Sys2Proof.Machine

/-! ### `CSR_READ` of a class R register -/

theorem exec_csrRead_r {a : BitVec 12} {r : RReg} (h : regAt a = some (.r r)) (s : State) :
    exec (.csrRead a) s = .next (respond (readR theParams s r) s) := by
  simp only [exec, execCsrRead, csrRead, h]
  rfl

/-! ### `FILT_STATUS` -/

theorem selfOsc_iff (p : FiltP) :
    selfOsc p = true ↔ (p.ctrl.topo = .ladder ∨ p.ctrl.topo = .svf) ∧ flt 0x3FEE666666666666 p.res = true := by
  rw [show (0x3FEE666666666666 : F64) = dec 95 2 from lit_95]
  simp only [selfOsc, Bool.and_eq_true, Bool.or_eq_true, beq_iff_eq]

/-- Settles O22: the register's index reads the flag, and the flag is set under the rule's condition. -/
theorem selfOscillationFlag : Obligations.SelfOscillationFlag := by
  intro s
  rw [exec_csrRead_r (r := .filtStatus) (by decide), ← if_congr (selfOsc_iff s.activeP.filt) rfl rfl]
  rfl

/-! ### The size of a register from its range -/

/-- Every number is a rounding of itself. -/
theorem monotoneRounding_self {x : F64} (hx : isNaN x = false) : MonotoneRounding (ratOf x) x :=
  ⟨hx, fun y _ => ⟨(ratOf_le_iff x y).1, (ratOf_le_iff y x).1⟩⟩

theorem ofInt_monotone (n : Int) : MonotoneRounding n (ofInt n) := by
  have h := roundDyadic_monotone (decide (n < 0)) n.natAbs 0
  rwa [signedInt_natAbs, zpow_zero, mul_one] at h

theorem atMost_ofInt {n : Int} {k : Nat} (hk : k ≤ 1023) (h : |n| ≤ 2 ^ k) : AtMost k (ofInt n) :=
  (ofInt_monotone n).atMost hk (by exact_mod_cast h)

theorem atMost_of_inRange {lo hi x : F64} {k : Nat} (hk : k ≤ 1023) (hlo : AtMost k lo) (hhi : AtMost k hi)
    (h : inRange lo hi x = true) : AtMost k x := by
  obtain ⟨hlow, hhigh⟩ := (inRange_iff lo hi x).1 h
  obtain ⟨-, hnum, hlow⟩ := (fle_iff lo x).1 hlow
  obtain ⟨-, -, hhigh⟩ := (fle_iff x hi).1 hhigh
  rw [← ratOf_le_iff] at hlow hhigh
  exact (monotoneRounding_self hnum).atMost hk
    (abs_le.2 ⟨(abs_le.1 hlo.2).1.trans hlow, hhigh.trans (abs_le.1 hhi.2).2⟩)

/-- A register with a range of integral ends is at most the power of two above both. -/
theorem atMost_of_admits {lo hi : Int} {x : F64} {k : Nat} (h : (f64Range lo hi).Admits x) (hk : k ≤ 1023 := by decide)
    (hlo : |lo| ≤ 2 ^ k := by decide) (hhi : |hi| ≤ 2 ^ k := by decide) : AtMost k x :=
  atMost_of_inRange hk (atMost_ofInt hk hlo) (atMost_ofInt hk hhi) h

/-! ### `CUTOFF_EFF` and `FILT_G` -/

/-- With the registers in their ranges no operation of R237 overflows, so the clamp has a number to act on. -/
theorem inRange_cutoffEff {P : Params} {s : State} (h : s.ParametersOk P) :
    inRange (ofInt 20) (ofInt 20000) (cutoffEff s.activeP.filt s.activeM) = true := by
  have hcutoff : AtMost 15 s.activeP.filt.cutoff :=
    atMost_of_admits (h.activeP (.filt .cutoff))
  have hnote : AtMost 15 s.activeP.filt.noteFreq :=
    atMost_of_admits (h.activeP (.filt .noteFreq))
  have hkeytrack : AtMost 0 s.activeP.filt.keytrack :=
    atMost_of_admits (h.activeP (.filt .keytrack))
  have henvAmt : AtMost 0 s.activeP.filt.envAmt :=
    atMost_of_admits (h.activeP (.filt .envAmt))
  have hlfoAmt : AtMost 0 s.activeP.filt.lfoAmt :=
    atMost_of_admits (h.activeP (.filt .lfoAmt))
  have henvIn : AtMost 0 s.activeM.envIn := atMost_of_admits (h.activeM .envIn)
  have hlfoIn : AtMost 0 s.activeM.lfoIn := atMost_of_admits (h.activeM .lfoIn)
  have hkey : AtMost 16 (fmul (fsub s.activeP.filt.noteFreq (ofInt 440)) s.activeP.filt.keytrack) :=
    (hnote.fsub (atMost_ofInt (by decide) (by decide)) (by decide)).fmul hkeytrack (by decide)
  have henv : AtMost 17 (fmul (fmul s.activeP.filt.envAmt s.activeM.envIn) (ofInt 10000)) :=
    (henvAmt.fmul henvIn (by decide)).fmul (atMost_ofInt (k := 17) (by decide) (by decide)) (by decide)
  have hlfo : AtMost 18 (fmul (fmul s.activeP.filt.lfoAmt s.activeM.lfoIn) (ofInt 5000)) :=
    (hlfoAmt.fmul hlfoIn (by decide)).fmul (atMost_ofInt (k := 18) (by decide) (by decide)) (by decide)
  have hsum := (((hcutoff.mono (by decide)).fadd hkey (by decide)).fadd henv (by decide)).fadd hlfo (by decide)
  exact inRange_fclamp (by decide) (isNaN_of_isFinite hsum.1)

theorem filtG_of_tpt {P : Params} {p : FiltP} (h : p.ctrl.topo = .ladder ∨ OnePoleForm p) (m : MBank) :
    filtG P p m = tptG P (warpLimit (cutoffEff p m) (filtRate P p.ctrl)) (filtRate P p.ctrl) :=
  if_pos (by simpa only [Bool.or_eq_true, beq_iff_eq, ← onePoleForm_iff] using h.symm)

theorem filtG_of_not_tpt {P : Params} {p : FiltP} (hladder : p.ctrl.topo ≠ .ladder) (hone : ¬OnePoleForm p) (m : MBank) :
    filtG P p m = f0 :=
  if_neg (by simpa only [Bool.or_eq_true, beq_iff_eq, ← onePoleForm_iff, not_or] using ⟨hone, hladder⟩)

/-! ### `COMB_LEN` -/

theorem one_le_maxComb : 1 ≤ theParams.maxComb := le_trans (by decide) (Nat.le_max_left 2 _)

theorem combLen_pos {P : Params} (h : 1 ≤ P.maxComb) (p : FiltP) (rate : F64) : 1 ≤ combLen P p rate :=
  (iclamp_mem (by omega)).1

/-- Of a length that needs more than 64 bits nothing is said (log 14). -/
theorem toNat_readR_combLen {s : State} (h : ruleCombLen s < 2 ^ 64) :
    ((readR theParams s .combLen).toNat : Int) = ruleCombLen s := by
  rw [ruleCombLen_eq] at h ⊢
  have hpos := combLen_pos one_le_maxComb s.activeP.filt (filtRate theParams s.activeP.filt.ctrl)
  unfold readR
  rw [u64Of_toNat (by omega), Int.toNat_of_nonneg (by omega)]

/-- Settles O35, register by register: each index reads its derived register, whose function is the rule's expression. -/
theorem effectiveCutoff : Obligations.EffectiveCutoff := by
  intro s answers q f rate g len
  refine ⟨?cutoff, inRange_cutoffEff, fun h => ?tpt, fun hladder hone => ?noTpt,
    readR theParams s .combLen, ?comb, fun hlen => ?length⟩
  case cutoff => exact exec_csrRead_r (r := .cutoffEff) (by decide) s
  case tpt =>
    have hg : filtG theParams q s.activeM = g := by
      rw [filtG_of_tpt h, ← ruleWarp_eq]
      rfl
    rw [← hg]
    exact exec_csrRead_r (r := .filtG) (by decide) s
  case noTpt =>
    rw [← filtG_of_not_tpt (P := theParams) hladder hone s.activeM]
    exact exec_csrRead_r (r := .filtG) (by decide) s
  case comb => exact exec_csrRead_r (r := .combLen) (by decide) s
  case length => exact toNat_readR_combLen hlen

end Sys2Proof.Machine

/-! PROOFS. `VOWEL_LOAD`: its words, and what it does to the shadow formant registers (42_filters.md R256). -/

namespace Sys2Proof.Machine

/-- The word of opcode 0x0E with a selector and no other field, whether or not the selector names a vowel. -/
theorem commandWord_vowelLoad (n : Fin 16) :
    commandWord 0x0E#8 (BitVec.ofNat 4 n.val) 0 = 0x0E000000#32 ||| BitVec.ofNat 32 n.val <<< 20 := by
  decide +revert

theorem decode_vowelLoad_illegal {n : Fin 16} (hn : 5 ≤ n.val) (v : Word) :
    decode ⟨0x0E000000#32 ||| BitVec.ofNat 32 n.val <<< 20, v⟩ = .illegal .selector := by
  have hsel : ¬ BitVec.ofNat 4 n.val ≤ 4#4 := by decide +revert
  rw [← commandWord_vowelLoad, decode_commandWord]
  change needSel (.vowelLoad _) (decide (BitVec.ofNat 4 n.val ≤ 4#4)) = _
  rw [decide_eq_false hsel]
  rfl

theorem exec_vowelLoad (v : Vowel) (s : State) :
    exec (.vowelLoad (BitVec.ofNat 4 v.code)) s = .next (loadVowel theParams v s) := by
  simp only [exec, execVowelLoad, vowelOfSel_code]

/-- Settles O36: a vowel's word is that of a well-formed command, a larger selector fails the decoder's check, and the
command is the load of the selector's vowel. -/
theorem vowelLoad : Obligations.VowelLoad := by
  refine ⟨fun w v => ?legal, fun n v hn => ⟨.selector, decode_vowelLoad_illegal hn v⟩, fun s v => exec_vowelLoad v s⟩
  case legal =>
    have hcode : w.code < 16 := by cases w <;> decide
    exact decode_of_word_eq_noBeat v (commandWord_vowelLoad ⟨w.code, hcode⟩) (by cases w <;> rfl)
      (show 0x0E#8 ≠ 0x10#8 by decide)

end Sys2Proof.Machine

/-! PROOFS. `DLY_PROC`: what each mode's colouring leaves alone, where the step writes the lines, and how it advances the
write index and the LFO phases (43_delay_lines.md R293, R296). -/

namespace Sys2Proof.Machine

/-! ### The LFO phases -/

/-- The LFO phases advance from the coloured state, so that a mode could disturb them; none does: the low-pass memories and
the noise generator are all that a colouring changes. -/
theorem advanceLfos_colour (P : Params) (q : DlyP) (analog : Bool) (dl dr : F64) (st : DlyState) :
    advanceLfos P q (colour P q analog dl dr st).st =
      { advanceLfos P q st with
        blpL := (colour P q analog dl dr st).st.blpL
        blpR := (colour P q analog dl dr st).st.blpR
        noise := (colour P q analog dl dr st).st.noise } := by
  obtain ⟨hbbd, -⟩ | ⟨hkept, -⟩ := colour_state P q analog dl dr st
  · rw [hbbd, bbdPair_state]
    rfl
  · rw [hkept]
    rfl

section
variable (P : Params) (q : DlyP) (bpm : F64) (analog : Bool) (xl xr : F64) (st : DlyState)

theorem dlyStepState_lfoL :
    (dlyStepState P q bpm analog xl xr st).lfoL = frac (fadd st.lfoL (fdiv q.chRate P.fs)) :=
  congrArg DlyState.lfoL (advanceLfos_colour P q analog _ _ st)

theorem dlyStepState_lfoR :
    (dlyStepState P q bpm analog xl xr st).lfoR = frac (fadd st.lfoR (fdiv (fmul q.chRate q.chRatio) P.fs)) :=
  congrArg DlyState.lfoR (advanceLfos_colour P q analog _ _ st)

theorem dlyStepState_phWow :
    (dlyStepState P q bpm analog xl xr st).phWow = frac (fadd st.phWow (fdiv q.wowRate P.fs)) :=
  congrArg DlyState.phWow (advanceLfos_colour P q analog _ _ st)

theorem dlyStepState_phFlut :
    (dlyStepState P q bpm analog xl xr st).phFlut = frac (fadd st.phFlut (fdiv q.flutRate P.fs)) :=
  congrArg DlyState.phFlut (advanceLfos_colour P q analog _ _ st)

/-! ### The lines and the write index -/

theorem dlyStepState_dw : (dlyStepState P q bpm analog xl xr st).dw = nextIndex st.dw P.maxDly := rfl

theorem dlyStepState_bufL :
    ∃ v, (dlyStepState P q bpm analog xl xr st).bufL = memWrite st.bufL st.dw v := ⟨_, rfl⟩

theorem dlyStepState_bufR :
    ∃ v, (dlyStepState P q bpm analog xl xr st).bufR = memWrite st.bufR st.dw v := ⟨_, rfl⟩

end

/-- The step writes one element of each line, at the write index, and no other memory. -/
theorem mem_dlyStep (P : Params) (l r : F64) (s : State) (sp : Space) :
    ((sp = .dbufL ∨ sp = .dbufR) ∧ ∃ v, (dlyStep P l r s).mem sp = memWrite (s.mem sp) s.dly.dw v) ∨
      (sp ≠ .dbufL ∧ sp ≠ .dbufR ∧ (dlyStep P l r s).mem sp = s.mem sp) := by
  cases sp
  case dbufL => exact .inl ⟨.inl rfl, dlyStepState_bufL ..⟩
  case dbufR => exact .inl ⟨.inr rfl, dlyStepState_bufR ..⟩
  case comb | hL | hR | histL | histR => exact .inr ⟨nofun, nofun, rfl⟩

theorem element_dlyStep_other {P : Params} {s : State} (h : s.MemoriesOk P) (l r : F64) {sp : Space} {i : Nat}
    (hother : ¬((sp = .dbufL ∨ sp = .dbufR) ∧ i = s.dly.dw)) :
    (dlyStep P l r s).element sp i = s.element sp i := by
  obtain ⟨hline, v, hwrite⟩ | ⟨-, -, hkept⟩ := mem_dlyStep P l r s sp
  · have hi : i ≠ s.dly.dw := fun hi => hother ⟨hline, hi⟩
    rw [State.element, hwrite, memRead_memWrite_other (h.mem sp) hi, State.element]
  · exact element_of_mem_eq hkept i

/-! ### The command -/

/-- Settles O37: the command is the unit step, which replaces the unit's state alone; the lines, the index and the phases
follow from the step's lemmas, whatever the mode. -/
theorem dlyProcFrame : Obligations.DlyProcFrame := by
  intro s hs q
  refine ⟨dlyStep theParams s.inL s.inR s, rfl, rfl, ?index, fun sp i => ?lines, ?lfoL, ?lfoR, ?wow, ?flutter⟩
  case index => exact dlyStepState_dw ..
  case lines => exact element_dlyStep_other hs s.inL s.inR
  case lfoL => exact dlyStepState_lfoL ..
  case lfoR => exact dlyStepState_lfoR ..
  case wow => exact dlyStepState_phWow ..
  case flutter => exact dlyStepState_phFlut ..

end Sys2Proof.Machine

/-! PROOFS. `CLR_ERR`: no error is recorded after it, and it keeps every element but `STATUS` (60_exceptions.md R377). -/

namespace Sys2Proof.Machine

theorem statusCode_zero : statusCode 0 = 0 := by decide

theorem clearErr_eq (s : State) : clearErr s = { s with status := 0 } := rfl

theorem exec_clrErr (s : State) : exec .clrErr s = .next (clearErr s) := rfl

/-- Settles O11: the command is `clearErr`, which writes `STATUS` alone, and the `STATUS` of 0 it leaves has neither the
error bit nor a code. -/
theorem clrErr : Obligations.ClrErr := by
  intro s
  refine ⟨clearErr s, exec_clrErr s, ?err, ?code, ?frame⟩
  case err => rw [clearErr_status, statusErr_zero]
  case code => rw [clearErr_status, statusCode_zero]
  case frame => exact clearErr_eq s

end Sys2Proof.Machine

/-! PROOFS. `TICK` with nothing enabled: each stage of the voice path passes its input on, so the outputs are the empty
mix after the output gain, and the reset bank is such a configuration (40_host_commands.md R150, R152,
70_reset_and_hazards.md R404). -/

namespace Sys2Proof.Machine

/-- Every oscillator channel disabled and every unit out of the `TICK` path. -/
structure PBank.AllDisabled (b : PBank) : Prop where
  osc : ∀ c : Chan, b.osc[c].ctrl.en = false
  filt : b.ctrl.filtEn = false
  dly : b.ctrl.dlyEn = false
  efx : b.ctrl.efxEn = false

/-! ### The oscillators -/

@[simp] theorem stepOscillators_activeP (P : Params) (s : State) : (stepOscillators P s).activeP = s.activeP := by
  simp only [stepOscillators, oscStep_activeP]

@[simp] theorem stepOscillators_activeM (P : Params) (s : State) : (stepOscillators P s).activeM = s.activeM := by
  simp only [stepOscillators, oscStep_activeM]

/-- The mix starts from `+0.0` and a disabled channel adds nothing to it, not even a zero of its own. -/
theorem mixOscillators_disabled {s : State} (h : ∀ c : Chan, s.activeP.osc[c].ctrl.en = false) :
    mixOscillators s = f0 := by
  simp only [mixOscillators, h, Bool.false_eq_true, if_false, List.foldl_fixed]

/-! ### A unit out of the path -/

theorem pathFilter_disabled {s : State} (h : s.activeP.ctrl.filtEn = false) (P : Params) (v : F64) :
    pathFilter P v s = ⟨v, v, s⟩ :=
  if_neg (ne_true_of_eq_false h)

theorem pathDelay_disabled {p : Path} (h : p.s.activeP.ctrl.dlyEn = false) (P : Params) : pathDelay P p = p :=
  if_neg (ne_true_of_eq_false h)

theorem pathEffect_disabled {p : Path} (h : p.s.activeP.ctrl.efxEn = false) (P : Params) : pathEffect P p = p :=
  if_neg (ne_true_of_eq_false h)

/-- With both effects out of the path `CHAIN_ORDER` makes no difference. -/
theorem pathEffects_disabled {p : Path} (hdly : p.s.activeP.ctrl.dlyEn = false) (hefx : p.s.activeP.ctrl.efxEn = false)
    (P : Params) : pathEffects P p = p := by
  have hdelay : pathDelay P p = p := pathDelay_disabled hdly P
  have heffect : pathEffect P p = p := pathEffect_disabled hefx P
  unfold pathEffects
  split
  · rw [heffect, hdelay]
  · rw [hdelay, heffect]

/-- With every unit out of the path the sample goes to both channels as it came. -/
theorem pathEffects_pathFilter_disabled {s : State} (h : s.activeP.AllDisabled) (P : Params) (v : F64) :
    pathEffects P (pathFilter P v s) = ⟨v, v, s⟩ := by
  rw [pathFilter_disabled h.filt]
  exact pathEffects_disabled h.dly h.efx P

/-! ### `TICK` -/

theorem exec_tick (s : State) : exec .tick s = .next (tickState theParams s) := rfl

theorem tickState_disabled {s : State} (h : s.activeP.AllDisabled) (P : Params) :
    tickState P s =
      { stepOscillators P s with
        oscMix := f0
        outL := fmul f0 s.activeM.amp
        outR := fmul f0 s.activeM.amp
        tickCount := s.tickCount + 1 } := by
  have hoff : (stepOscillators P s).activeP.AllDisabled := (stepOscillators_activeP P s).symm ▸ h
  have hmix : mixOscillators (stepOscillators P s) = f0 := mixOscillators_disabled hoff.osc
  rw [tickState, hmix, pathEffects_pathFilter_disabled (s := { stepOscillators P s with oscMix := f0 }) hoff,
    stepOscillators_activeM, stepOscillators_tickCount]
  rfl

theorem exec_tick_disabled {s : State} (h : s.activeP.AllDisabled) :
    ∃ t, exec .tick s = .next t ∧ t.oscMix = f0 ∧ t.outL = fmul f0 s.activeM.amp ∧ t.outR = fmul f0 s.activeM.amp := by
  refine ⟨tickState theParams s, exec_tick s, ?_⟩
  rw [tickState_disabled h]
  exact ⟨rfl, rfl, rfl⟩

/-! ### After reset -/

theorem resetPBank_allDisabled (P : Params) : (resetPBank P).AllDisabled where
  osc
    | 0 | 1 | 2 | 3 => rfl
  filt := rfl
  dly := rfl
  efx := rfl

/-- `AMP` is `1.0` at reset, and `+0.0 * 1.0` keeps its sign. -/
theorem fmul_f0_resetAmp : fmul f0 State.reset.activeM.amp = f0 := by
  change fmul f0 f1 = f0
  decide

/-- Settles O48: the path with nothing in it is the empty mix after the output gain, and the reset bank, whose gain is
`1.0`, disables everything. -/
theorem tickSilence : Obligations.TickSilence := by
  have hreset : State.reset.activeP.AllDisabled := resetPBank_allDisabled theParams
  refine ⟨fun s hosc hfilt hdly hefx => exec_tick_disabled ⟨hosc, hfilt, hdly, hefx⟩, hreset.osc, hreset.filt,
    hreset.dly, hreset.efx, ?tick⟩
  case tick => simpa only [fmul_f0_resetAmp] using exec_tick_disabled hreset

end Sys2Proof.Machine

/-! PROOFS. Decoding and encoding agree: what a word that decodes has in each field, and which words do not decode
(30_encoding.md R100 to R108). -/

namespace Sys2Proof.Machine

/-! ### The fields of a word that decodes -/

theorem needSel_eq_command_iff {i j : Instr} {ok : Bool} : needSel j ok = .command i ↔ ok = true ∧ j = i := by
  cases ok <;> simp [needSel]

theorem exists_needSel_eq_illegal_iff {j : Instr} {ok : Bool} : (∃ why, needSel j ok = .illegal why) ↔ ok = false := by
  cases ok <;> simp [needSel]

/-- The command is well-formed and its word has these fields besides `RSV`. -/
structure FieldsOf (i : Instr) (op : BitVec 8) (sel : BitVec 4) (addr : BitVec 12) : Prop where
  wellFormed : i.wellFormed = true
  opcode : i.opcode = op
  selector : i.selector = sel
  address : i.address = addr

/-- Opcode by opcode: the selector check is the command's own well-formedness, or asks for a selector of 0. -/
theorem fieldsOf_decodeOp {i : Instr} {op : BitVec 8} {sel : BitVec 4} (h : decodeOp op sel = .command i) :
    FieldsOf i op sel 0 := by
  unfold decodeOp at h
  split at h
  case h_15 => cases h
  all_goals
    next hop =>
      obtain ⟨hsel, rfl⟩ := needSel_eq_command_iff.1 h
      exact ⟨by simp_all [Instr.wellFormed], BitVec.eq_of_toNat_eq hop.symm, by simp_all [Instr.selector], rfl⟩

theorem fieldsOf_decode {x : Transaction} {i : Instr} (h : decode x = .command i) :
    rsvField x.word = 0 ∧ FieldsOf i (opField x.word) (selField x.word) (addrField x.word) ∧
      (opField x.word = 0x10#8 → i.dataBeat = x.data) := by
  unfold decode at h
  dsimp only at h
  split_ifs at h with hrsv hwrite hread haddr
  · obtain ⟨hsel, rfl⟩ := needSel_eq_command_iff.1 h
    exact ⟨not_not.1 hrsv, ⟨rfl, hwrite.symm, (eq_of_beq hsel).symm, rfl⟩, fun _ => rfl⟩
  · obtain ⟨hsel, rfl⟩ := needSel_eq_command_iff.1 h
    exact ⟨not_not.1 hrsv, ⟨rfl, hread.symm, (eq_of_beq hsel).symm, rfl⟩, fun hop => absurd hop hwrite⟩
  · rw [not_not.1 haddr]
    exact ⟨not_not.1 hrsv, fieldsOf_decodeOp h, fun hop => absurd hop hwrite⟩

/-! ### Decoding and encoding agree -/

theorem decode_encode {i : Instr} (h : i.wellFormed = true) : decode (encode i) = .command i :=
  decode_of_word_eq i.dataBeat rfl h fun _ => rfl

theorem encode_word_of_decode {x : Transaction} {i : Instr} (h : decode x = .command i) : (encode i).word = x.word := by
  obtain ⟨hrsv, hfields, -⟩ := fieldsOf_decode h
  rw [← commandWord_fields hrsv, ← hfields.opcode, ← hfields.selector, ← hfields.address]
  rfl

/-- Settles O1: a command's word is put together from its fields, and a word that decodes is put together from the fields
of what it decodes to; the data beat is read under `CSR_WRITE`'s opcode alone. -/
theorem decodeEncode : Obligations.DecodeEncode := by
  refine ⟨fun i => decode_encode, fun x i h => ?_⟩
  obtain ⟨-, hfields, hbeat⟩ := fieldsOf_decode h
  have hword := encode_word_of_decode h
  refine ⟨hfields.wellFormed, hword, fun hop => ?_⟩
  calc encode i = ⟨(encode i).word, i.dataBeat⟩ := rfl
    _ = x := by rw [hword, hbeat hop]

/-! ### The words that are ILLEGAL -/

/-- The greatest selector of an opcode without a register index (R103). -/
def selLimit (op : Nat) : Nat :=
  if op = 0x05 then 6 else if op = 0x08 ∨ op = 0x09 then 3 else if op = 0x0E then 4 else 0

/-- The list of R103, R104 and R108, on the fields as numbers. -/
def IllegalFields (op sel rsv addr : Nat) : Prop :=
  op = 0x07 ∨ op = 0x0F ∨ 0x12 ≤ op ∨ rsv ≠ 0 ∨ selLimit op < sel ∨ (addr ≠ 0 ∧ op ≠ 0x10 ∧ op ≠ 0x11)

theorem sel_ne_zero_iff (sel : BitVec 4) : ¬sel = 0#4 ↔ 0 < sel.toNat := by
  rw [BitVec.toNat_eq, Nat.pos_iff_ne_zero]
  rfl

theorem exists_decodeOp_eq_illegal_iff (op : BitVec 8) (sel : BitVec 4) :
    (∃ why, decodeOp op sel = .illegal why) ↔
      op.toNat = 0x07 ∨ 0x0F ≤ op.toNat ∨ selLimit op.toNat < sel.toNat := by
  unfold decodeOp
  split
  case h_15 =>
    simp only [imp_false] at *
    exact iff_of_true ⟨_, rfl⟩ (by omega)
  all_goals
    next hop =>
      rw [exists_needSel_eq_illegal_iff, hop]
      simp [selLimit, sel_ne_zero_iff, BitVec.lt_def]

theorem exists_decode_eq_illegal_iff (x : Transaction) :
    (∃ why, decode x = .illegal why) ↔
      IllegalFields (opField x.word).toNat (selField x.word).toNat (rsvField x.word).toNat (addrField x.word).toNat := by
  have hop (n : BitVec 8) : opField x.word = n ↔ (opField x.word).toNat = n.toNat := BitVec.toNat_eq
  have hrsv : rsvField x.word = 0 ↔ (rsvField x.word).toNat = 0 := BitVec.toNat_eq
  have haddr : addrField x.word = 0 ↔ (addrField x.word).toNat = 0 := BitVec.toNat_eq
  unfold decode IllegalFields
  dsimp only
  split_ifs with h1 h2 h3 h4
  · exact iff_of_true ⟨_, rfl⟩ (by tauto)
  · rw [hop] at h2
    simp [exists_needSel_eq_illegal_iff, sel_ne_zero_iff, selLimit, h2, hrsv.1 (not_not.1 h1)]
  · rw [hop] at h3
    simp [exists_needSel_eq_illegal_iff, sel_ne_zero_iff, selLimit, h3, hrsv.1 (not_not.1 h1)]
  · exact iff_of_true ⟨_, rfl⟩ (by rw [hop] at h2 h3; tauto)
  · rw [exists_decodeOp_eq_illegal_iff, hrsv.1 (not_not.1 h1), haddr.1 (not_not.1 h4)]
    rw [hop] at h2 h3
    simp only [BitVec.toNat_ofNat, Nat.reduceMod, Nat.reducePow] at h2 h3
    omega

/-- Performing a word that does not decode (R108): the error record, and the zero beat of a `CSR_READ` word. -/
theorem step_of_illegal {s : State} {x : Transaction} {rest : List Transaction} {why : IllegalWord}
    (hpending : s.port.pending = x :: rest) (h : decode x = .illegal why) :
    step s = .next (illegalWord x.word (s.taken rest)) := by
  simp only [step, hpending, h, dropPending, List.tail_cons]
  rfl

theorem illegalWord_taken (w : BitVec 32) (s : State) (rest : List Transaction) :
    illegalWord w (s.taken rest) =
      { s with
        status := recordErr .illegalCmd s.status
        port := ⟨rest, if (opField w).toNat = 0x11 then s.port.responses ++ [0] else s.port.responses⟩ } := by
  have hresponse : hasResponse w = true ↔ (opField w).toNat = 0x11 := by
    rw [hasResponse, beq_iff_eq, BitVec.toNat_eq]
    rfl
  obtain ⟨hread, h⟩ | ⟨hread, h⟩ := illegalWord_cases w (s.taken rest)
  · rw [h, if_pos (hresponse.1 hread)]
    rfl
  · rw [h, if_neg (fun hop => by simp [hresponse.2 hop] at hread)]
    rfl

/-- Settles O3: the decoder's checks are the rule's list, in the rule's order, and every word that fails one is performed
alike. -/
theorem illegalWords : Obligations.IllegalWords := by
  intro s x rest hpending op sel rsv addr limit illegal
  have hiff : (∃ why, decode x = .illegal why) ↔ illegal := exists_decode_eq_illegal_iff x
  refine ⟨hiff, fun hillegal => ?_⟩
  obtain ⟨why, h⟩ := hiff.2 hillegal
  rw [step_of_illegal hpending h, illegalWord_taken]
  rfl

/-! ### Performing a word that decodes -/

/-- Settles O4: the step takes the transaction from the port before the command runs. -/
theorem stepRunsDecoded : Obligations.StepRunsDecoded := by
  intro s x rest i hpending h
  simp only [step, hpending, h, dropPending, List.tail_cons]

end Sys2Proof.Machine

/-! PROOFS. Exact results: a number with a significand of 53 bits is one of the finite values, rounding does not move it, and
from this comparison, `Float`, `Floor`, `ToInt` and `frac` are those of the numbers (00_scope.md R14, R15). -/

namespace Sys2Proof.Machine

/-! ### The value that a significand is rounded to -/

theorem Codes.unique {N : Int} {v w : ℚ} (hv : Codes N v) (hw : Codes N w) : v = w :=
  le_antisymm ((hv.le_iff hw).2 le_rfl) ((hw.le_iff hv).2 le_rfl)

theorem codes_infMagnitude : Codes infMagnitude (2 ^ 1024) := by
  refine ⟨972, 2 ^ 52, by decide, by decide, fun _ => le_rfl, by decide, ?_⟩
  rw [show (972 : Int) = ((972 : Nat) : Int) from rfl, zpow_natCast, Nat.cast_pow, Nat.cast_ofNat, ← pow_add]

/-- What `roundDyadic` gives before the sign and the overflow. -/
def roundedValue (m : Nat) (e : Int) : ℚ := (roundedSignificand m e : ℚ) * 2 ^ quantum m e

theorem isFinite_roundDyadic {m : Nat} {e : Int} (hm : m ≠ 0) (h : roundedValue m e < 2 ^ 1024) (neg : Bool) :
    isFinite (roundDyadic neg m e) = true ∧ |ratOf (roundDyadic neg m e)| = roundedValue m e := by
  have hcode := codes_roundedSignificand hm e
  have hlt := lt_iff_lt_of_le_iff_le (codes_infMagnitude.le_iff hcode) |>.1 h
  have hmag : magnitude (roundDyadic neg m e) = (quantum m e + 1074).toNat * 2 ^ 52 + roundedSignificand m e := by
    have := infMagnitude_lt
    rw [roundDyadic_eq hm, magnitude_ofMagnitude (by omega)]
    omega
  refine ⟨(isFinite_iff _).2 (by omega), (codes_magnitude _).unique ?_⟩
  rw [hmag]
  exact hcode

theorem roundDyadic_overflow {m : Nat} {e : Int} (hm : m ≠ 0) (h : 2 ^ 1024 ≤ roundedValue m e) (neg : Bool) :
    roundDyadic neg m e = signedInf neg := by
  have hle := (codes_infMagnitude.le_iff (codes_roundedSignificand hm e)).1 h
  rw [roundDyadic_eq hm, min_eq_right (by omega)]
  rfl

/-- With 53 bits and an exponent that exists nothing is rounded away. -/
theorem roundedValue_exact {m : Nat} {e : Int} (hm : m < 2 ^ 53) (he : -1074 ≤ e) : roundedValue m e = m * 2 ^ e := by
  have hlog : m.log2 < 53 := by
    by_cases h0 : m = 0
    · subst h0; decide
    · exact (Nat.log2_lt h0).2 hm
  have hq : quantum m e ≤ e := by unfold quantum; omega
  rw [roundedValue, roundedSignificand, if_pos hq, ← mul_zpow_eq_of_le m hq]

/-- A number of 53 significant bits below the overflow is a finite value. -/
theorem exists_ratOf_eq {m : Nat} {e : Int} (hm : m < 2 ^ 53) (he : -1074 ≤ e) (hlt : (m : ℚ) * 2 ^ e < 2 ^ 1024) :
    ∃ y, isFinite y = true ∧ ratOf y = m * 2 ^ e := by
  by_cases h0 : m = 0
  · exact ⟨f0, by decide, by rw [ratOf_f0, h0]; simp⟩
  · have hval := roundedValue_exact hm he
    obtain ⟨hfin, habs⟩ := isFinite_roundDyadic h0 (hval ▸ hlt) false
    refine ⟨_, hfin, ?_⟩
    rw [ratOf_eq_abs, signBit_roundDyadic, habs, hval]
    rfl

theorem exists_ratOf_eq_neg {v : ℚ} (h : ∃ y, isFinite y = true ∧ ratOf y = v) : ∃ y, isFinite y = true ∧ ratOf y = -v := by
  obtain ⟨y, hy, rfl⟩ := h
  exact ⟨flipSign y, by rwa [isFinite_flipSign], ratOf_flipSign y⟩

theorem exists_ratOf_eq_intCast {n : Int} (h : n.natAbs < 2 ^ 53) : ∃ y, isFinite y = true ∧ ratOf y = (n : ℚ) := by
  have hlt : (n.natAbs : ℚ) < 2 ^ 53 := by exact_mod_cast h
  have hnat : ∃ y, isFinite y = true ∧ ratOf y = (n.natAbs : ℚ) := by
    have := exists_ratOf_eq (e := 0) h (by decide) 
      (by rw [zpow_zero, mul_one]; exact hlt.trans (pow_lt_pow_right₀ one_lt_two (by decide)))
    rwa [zpow_zero, mul_one] at this
  obtain hpos | hneg := n.natAbs_eq
  · rwa [show (n : ℚ) = (n.natAbs : ℚ) by conv_lhs => rw [hpos, Int.cast_natCast]]
  · rw [show (n : ℚ) = -(n.natAbs : ℚ) by conv_lhs => rw [hneg, Int.cast_neg, Int.cast_natCast]]
    exact exists_ratOf_eq_neg hnat

/-! ### A rounding does not move a finite value -/

theorem isFinite_of_orderKey_eq {x y : F64} (h : orderKey x = orderKey y) (hy : isFinite y = true) : isFinite x = true := by
  rw [isFinite_iff] at hy ⊢
  rw [orderKey_eq, orderKey_eq] at h
  split at h <;> split at h <;> omega

theorem MonotoneRounding.exact {v : ℚ} {r : F64} (h : MonotoneRounding v r) (hv : ∃ y, isFinite y = true ∧ ratOf y = v) :
    isFinite r = true ∧ ratOf r = v := by
  obtain ⟨y, hy, rfl⟩ := hv
  have hle := h.le hy le_rfl
  have hge := h.ge hy le_rfl
  have hkey : orderKey r = orderKey y := le_antisymm ((ratOf_le_iff r y).1 hle) ((ratOf_le_iff y r).1 hge)
  exact ⟨isFinite_of_orderKey_eq hkey hy, le_antisymm hle hge⟩

/-! ### `Float` and `Floor` -/

theorem ratOf_ofInt {n : Int} (h : n.natAbs < 2 ^ 53) : isFinite (ofInt n) = true ∧ ratOf (ofInt n) = n :=
  (ofInt_monotone n).exact (exists_ratOf_eq_intCast h)

theorem ratOf_eq_intCast_of_exponent_nonneg {x : F64} (h : 0 ≤ exponent x) : ∃ n : Int, ratOf x = n :=
  ⟨_, by rw [ratOf_eq_of_le h, zpow_zero, mul_one]⟩

/-- Below the exponent 0 a significand counts halves at most. -/
theorem abs_ratOf_lt_of_exponent_neg {x : F64} (h : exponent x < 0) : |ratOf x| < 2 ^ 52 := by
  have hsig : (significand x : ℚ) < 2 ^ 53 := by exact_mod_cast significand_lt x
  calc |ratOf x| = (significand x : ℚ) * 2 ^ exponent x := abs_ratOf x
    _ ≤ significand x * 2 ^ (-1 : Int) := by gcongr <;> [norm_num; omega]
    _ < 2 ^ 53 * 2 ^ (-1 : Int) := by gcongr
    _ = 2 ^ 52 := by norm_num

/-- The floor of a finite value is a finite value: itself, or an integer of at most 53 bits. -/
theorem exists_ratOf_eq_floor {x : F64} (hx : isFinite x = true) :
    ∃ y, isFinite y = true ∧ ratOf y = (⌊ratOf x⌋ : ℚ) := by
  obtain hneg | hpos := lt_or_ge (exponent x) 0
  · obtain ⟨hlow, hhigh⟩ := abs_lt.1 (abs_ratOf_lt_of_exponent_neg hneg)
    have h1 : ⌊ratOf x⌋ < 2 ^ 52 := Int.floor_lt.2 (by exact_mod_cast hhigh)
    have h2 : -2 ^ 52 ≤ ⌊ratOf x⌋ := Int.le_floor.2 (by exact_mod_cast hlow.le)
    exact exists_ratOf_eq_intCast (by omega)
  · obtain ⟨n, hn⟩ := ratOf_eq_intCast_of_exponent_nonneg hpos
    exact ⟨x, hx, by rw [hn, Int.floor_intCast]⟩

theorem ratOf_eq_zero_iff (x : F64) : ratOf x = 0 ↔ isZero x = true := by
  rw [← abs_eq_zero, abs_ratOf_eq_zero_iff, isZero, beq_iff_eq]

theorem ratOf_ffloor_eq {x : F64} (hx : isFinite x = true) :
    isFinite (ffloor x) = true ∧ ratOf (ffloor x) = ⌊ratOf x⌋ := by
  unfold ffloor
  split
  · rw [floorInt_eq]
    exact (ofInt_monotone _).exact (exists_ratOf_eq_floor hx)
  case isFalse h =>
    have hzero : ratOf x = 0 := (ratOf_eq_zero_iff x).2 (by simpa [hx] using h)
    exact ⟨hx, by rw [hzero, Int.floor_zero, Int.cast_zero]⟩

theorem toInt_eq_floor {x : F64} (hx : isFinite x = true) : toInt x = ⌊ratOf x⌋ := by
  rw [toInt, if_pos hx, floorInt_eq]

/-! ### Comparison -/

theorem flt_iff_ratOf {a b : F64} (ha : isFinite a = true) (hb : isFinite b = true) : flt a b = true ↔ ratOf a < ratOf b := by
  simp [flt_iff, isNaN_of_isFinite ha, isNaN_of_isFinite hb, ratOf_lt_iff]

theorem fle_iff_ratOf {a b : F64} (ha : isFinite a = true) (hb : isFinite b = true) : fle a b = true ↔ ratOf a ≤ ratOf b := by
  simp [fle_iff, isNaN_of_isFinite ha, isNaN_of_isFinite hb, ratOf_le_iff]

theorem feq_iff_ratOf {a b : F64} (ha : isFinite a = true) (hb : isFinite b = true) : feq a b = true ↔ ratOf a = ratOf b := by
  rw [le_antisymm_iff (a := ratOf a), ratOf_le_iff, ratOf_le_iff, ← le_antisymm_iff]
  simp [feq, isNaN_of_isFinite ha, isNaN_of_isFinite hb]

/-- Settles O60: the order of the patterns is that of the numbers, and the results of `Float` below `2 ^ 53` and of `Floor`
are finite values, which rounding does not move. -/
theorem helperFunctions : Obligations.HelperFunctions := by
  refine ⟨fun a b ha hb => ⟨flt_iff_ratOf ha hb, fle_iff_ratOf ha hb, feq_iff_ratOf ha hb⟩, fun n hn => ratOf_ofInt hn,
    fun x hx => ?_⟩
  obtain ⟨hfin, hfloor⟩ := ratOf_ffloor_eq hx
  exact ⟨toInt_eq_floor hx, hfin, hfloor⟩

/-! ### Phases: `frac` of a value that is not negative is exact -/

theorem isPhase_iff_ratOf {x : F64} (hx : isFinite x = true) : IsPhase x ↔ 0 ≤ ratOf x ∧ ratOf x < 1 := by
  rw [IsPhase, fle_iff_ratOf (by decide) hx, flt_iff_ratOf hx (by decide), ratOf_f0, ratOf_f1]

/-- The fraction of a number that is not negative keeps the low bits of its significand. -/
theorem exists_ratOf_eq_fract {x : F64} (h0 : 0 ≤ ratOf x) :
    ∃ y, isFinite y = true ∧ ratOf y = ratOf x - ⌊ratOf x⌋ := by
  obtain hneg | hpos := lt_or_ge (exponent x) 0
  · obtain ⟨k, hk⟩ : ∃ k : Nat, exponent x = -k := ⟨(-exponent x).toNat, by omega⟩
    have hpow : (0 : ℚ) < 2 ^ k := by positivity
    have hval : ratOf x = (significand x : ℚ) / ((2 ^ k : Nat) : ℚ) := by
      rw [← abs_of_nonneg h0, abs_ratOf, hk, zpow_neg, zpow_natCast]
      push_cast
      rfl
    have hfloor : ⌊ratOf x⌋ = ((significand x / 2 ^ k : Nat) : Int) := by
      rw [hval, Rat.floor_natCast_div_natCast]
      rfl
    have hlt : significand x % 2 ^ k < 2 ^ 53 := (Nat.mod_le _ _).trans_lt (significand_lt x)
    have hdiv : (2 ^ k * (significand x / 2 ^ k : Nat) + (significand x % 2 ^ k : Nat) : ℚ) = significand x := by
      exact_mod_cast Nat.div_add_mod (significand x) (2 ^ k)
    have hfract : ratOf x - ⌊ratOf x⌋ = ((significand x % 2 ^ k : Nat) : ℚ) * 2 ^ exponent x := by
      rw [hfloor, hval, hk, zpow_neg, zpow_natCast, Int.cast_natCast, ← hdiv, Nat.cast_pow, Nat.cast_ofNat]
      field_simp
      ring
    rw [hfract]
    refine exists_ratOf_eq hlt (exponent_ge x) ?_
    rw [← hfract]
    exact (Int.fract_lt_one (ratOf x)).trans (one_lt_pow₀ one_lt_two (by decide))
  · obtain ⟨n, hn⟩ := ratOf_eq_intCast_of_exponent_nonneg hpos
    exact ⟨f0, by decide, by rw [hn, Int.floor_intCast, sub_self, ratOf_f0]⟩

theorem isPhase_frac {x : F64} (hx : isFinite x = true) (h0 : 0 ≤ ratOf x) : IsPhase (frac x) := by
  obtain ⟨hfin, hfloor⟩ := ratOf_ffloor_eq hx
  have hsub := fsub_monotone hx hfin
  rw [hfloor] at hsub
  obtain ⟨hfrac, hval⟩ := hsub.exact (exists_ratOf_eq_fract h0)
  rw [frac, isPhase_iff_ratOf hfrac, hval]
  exact ⟨Int.fract_nonneg _, Int.fract_lt_one _⟩

end Sys2Proof.Machine

/-! PROOFS. The parameters a block is built with satisfy the constraints of the spec, and its functions their named
properties (00_scope.md R7, R8, R10, R18). -/

namespace Sys2Proof.Machine

/-! ### Values taken into a range -/

theorem inRange_within {lo hi other : F64} (h : inRange lo hi other = true) (r : F64) :
    inRange lo hi (within lo hi other r) = true := by
  unfold within
  split
  case isTrue hr => exact hr
  case isFalse => exact h

theorem inRange_rangedOf {lo hi : F64} (h : fle lo hi = true) (x : F64) : inRange lo hi (rangedOf lo hi x) = true := by
  unfold rangedOf
  split
  case isTrue =>
    obtain ⟨hlo, -, -⟩ := (fle_iff lo hi).1 h
    exact (inRange_iff _ _ _).2 ⟨(fle_iff _ _).2 ⟨hlo, hlo, le_rfl⟩, h⟩
  case isFalse hx => exact inRange_fclamp h (by simpa using hx)

theorem sampleRateOf_spec (x : F64) : isFinite (sampleRateOf x) = true ∧ fle (ofInt 8000) (sampleRateOf x) = true := by
  unfold sampleRateOf
  split
  case isTrue hx => exact Bool.and_eq_true_iff.1 hx
  case isFalse => decide

theorem inRange_formantOf (raw : Nat → F64) :
    inRange (ofInt 20) (ofInt 20000) (formantOf raw).freq = true ∧ inRange f1 (ofInt 20000) (formantOf raw).bw = true ∧
      inRange f0 f1 (formantOf raw).gain = true :=
  ⟨inRange_rangedOf (by decide) _, inRange_rangedOf (by decide) _, inRange_rangedOf (by decide) _⟩

/-! ### The functions -/

theorem inRange_sinOf (raw : F64 → F64) {x : F64} (hx : isFinite x = true) : inRange fNeg1 f1 (sinOf raw x) = true := by
  unfold sinOf
  split
  · decide
  · exact inRange_within (by decide) _

theorem inRange_cosOf (raw : F64 → F64) {x : F64} (hx : isFinite x = true) : inRange fNeg1 f1 (cosOf raw x) = true := by
  unfold cosOf
  split
  · decide
  · exact inRange_within (by decide) _

theorem tanOf_pos (raw : F64 → F64) {x : F64} (h0 : flt f0 x = true) (hlimit : fle x tanLimit = true) :
    flt f0 (tanOf raw x) = true := by
  have hne : x ≠ f0 := by
    rintro rfl
    exact absurd h0 (by decide)
  rw [tanOf, if_neg hne, if_pos (by rw [h0, hlimit]; rfl)]
  split
  case isTrue hpos => exact hpos
  case isFalse => decide

/-- A range that is symmetric about 0 is kept by a change of sign. -/
theorem inRange_flipSign {y : F64} (h : inRange fNeg1 f1 y = true) : inRange fNeg1 f1 (flipSign y) = true := by
  obtain ⟨hlo, hhi⟩ := (inRange_iff _ _ _).1 h
  obtain ⟨hneg, hy, hlo⟩ := (fle_iff _ _).1 hlo
  obtain ⟨-, hone, hhi⟩ := (fle_iff _ _).1 hhi
  have hflip : isNaN (flipSign y) = false := by rw [isNaN_eq_false_iff, magnitude_flipSign]; exact (isNaN_eq_false_iff y).1 hy
  have hkey : orderKey fNeg1 = -orderKey f1 := by decide
  refine (inRange_iff _ _ _).2 ⟨(fle_iff _ _).2 ⟨hneg, hflip, ?_⟩, (fle_iff _ _).2 ⟨hflip, hone, ?_⟩⟩ <;>
    rw [orderKey_flipSign] <;> omega

theorem inRange_of_isZero {x : F64} (h : isZero x = true) : inRange fNeg1 f1 x = true := by
  have hmag : magnitude x = 0 := by simpa [isZero] using h
  have hkey : orderKey x = 0 := by rw [orderKey_eq, hmag]; split <;> rfl
  have hnum : isNaN x = false := (isNaN_eq_false_iff x).2 (by omega)
  exact (inRange_iff _ _ _).2 ⟨(fle_iff _ _).2 ⟨by decide, hnum, by rw [hkey]; decide⟩,
    (fle_iff _ _).2 ⟨hnum, by decide, by rw [hkey]; decide⟩⟩

theorem inRange_tanhOf (raw : F64 → F64) {x : F64} (hx : isNaN x = false) : inRange fNeg1 f1 (tanhOf raw x) = true := by
  unfold tanhOf
  rw [if_neg (by simp [hx])]
  split
  case isTrue hzero => exact inRange_of_isZero hzero
  case isFalse =>
    have hvalue (y : F64) : inRange fNeg1 f1 (within fNeg1 f1 f0 y) = true := inRange_within (by decide) y
    split
    · exact inRange_flipSign (hvalue _)
    · exact hvalue _

theorem isNaN_of_inRange {lo hi x : F64} (h : inRange lo hi x = true) : isNaN x = false := by
  obtain ⟨h, -⟩ := (inRange_iff lo hi x).1 h
  exact ((fle_iff lo x).1 h).2.1

theorem isNaN_flipSign (x : F64) : isNaN (flipSign x) = isNaN x := by
  simp only [isNaN, expField_eq, fracField_eq, magnitude_flipSign]

theorem isZero_flipSign (x : F64) : isZero (flipSign x) = isZero x := by rw [isZero, isZero, magnitude_flipSign]

theorem flipSign_flipSign (x : F64) : flipSign (flipSign x) = x := by
  rw [flipSign, flipSign, BitVec.xor_assoc, BitVec.xor_self, BitVec.xor_zero]

theorem fneg_of_num {x : F64} (hx : isNaN x = false) : fneg x = flipSign x := if_neg (by simp [hx])

/-- The function is read at positive arguments alone, and put back with the argument's sign. -/
theorem tanhOf_flipSign (raw : F64 → F64) {x : F64} (hx : isNaN x = false) :
    tanhOf raw (flipSign x) = flipSign (tanhOf raw x) := by
  unfold tanhOf
  simp only [isNaN_flipSign, isZero_flipSign, signBit_flipSign, hx, Bool.false_eq_true, if_false]
  split
  · rfl
  · cases signBit x <;> simp [flipSign_flipSign]

theorem exp2Of_ofInt (raw : F64 → F64) {n : Int} (hlo : -1074 ≤ n) (hhi : n ≤ 1023) :
    exp2Of raw (ofInt n) = powerOfTwo n := by
  obtain ⟨hfin, hval⟩ := ratOf_ofInt (n := n) (by omega)
  have hfloor : floorInt (ofInt n) = n := by rw [floorInt_eq, hval, Int.floor_intCast]
  unfold exp2Of
  rw [hfloor, if_pos (by simp [hfin, hlo, hhi])]

theorem inRange_powOf (raw : F64 → F64 → F64) {b e : F64} (h0 : flt f0 b = true) (h1 : fle b f1 = true)
    (he : fle f0 e = true) : inRange f0 f1 (powOf raw b e) = true := by
  unfold powOf
  split
  · decide
  · rw [if_pos (by simp [h0, h1, he])]
    exact inRange_within (by decide) _

/-- Settles O57, property by property: each open constant is taken into its constraint where the block reads it. -/
theorem parametersValid : Obligations.ParametersValid where
  fs_finite := (sampleRateOf_spec _).1
  fs_least := (sampleRateOf_spec _).2
  maxDly_least := Nat.le_max_left ..
  maxComb_least := Nat.le_max_left ..
  maxFir_least := Nat.le_max_left ..
  vowel_freq v k := (inRange_formantOf (Config.vowelRaw v.code k.val)).1
  vowel_bw v k := (inRange_formantOf (Config.vowelRaw v.code k.val)).2.1
  vowel_gain v k := (inRange_formantOf (Config.vowelRaw v.code k.val)).2.2
  sinZero := show sinOf Config.sinRaw f0 = f0 from if_pos rfl
  sinBound x hx := inRange_sinOf Config.sinRaw hx
  cosZero := show cosOf Config.cosRaw f0 = f1 from if_pos rfl
  cosBound x hx := inRange_cosOf Config.cosRaw hx
  tanZero := show tanOf Config.tanRaw f0 = f0 from if_pos rfl
  tanPos x h0 hlimit := tanOf_pos Config.tanRaw h0 hlimit
  tanhZero := by rfl
  tanhBound x hx := inRange_tanhOf Config.tanhRaw hx
  tanhOdd x hx := by
    have hbound : inRange fNeg1 f1 (theParams.tanh x) = true := inRange_tanhOf Config.tanhRaw hx
    rw [fneg_of_num hx, fneg_of_num (isNaN_of_inRange hbound)]
    exact tanhOf_flipSign Config.tanhRaw hx
  exp2Int n hlo hhi := exp2Of_ofInt Config.exp2Raw hlo hhi
  powOne b := show powOf Config.powRaw b f0 = f1 from if_pos rfl
  powBase b e h0 h1 he := inRange_powOf Config.powRaw h0 h1 he

end Sys2Proof.Machine

/-! PROOFS. The register banks: the field registers read as the words they hold, what a register reads as after a write of
the same and of another register, and what a `CSR_WRITE` does by the kind of register (10_state.md R33, R40, R45, R48, R52,
40_host_commands.md R132). -/

namespace Sys2Proof.Machine

/-! ### The codes of the fields -/

theorem Wave.code_of_ofCode {n : Nat} {w : Wave} (h : Wave.ofCode n = some w) : w.code = n := by
  unfold Wave.ofCode at h; split at h <;> cases h <;> rfl

theorem BandLimit.code_of_ofCode {n : Nat} {b : BandLimit} (h : BandLimit.ofCode n = some b) : b.code = n := by
  unfold BandLimit.ofCode at h; split at h <;> cases h <;> rfl

theorem Topology.code_of_ofCode {n : Nat} {t : Topology} (h : Topology.ofCode n = some t) : t.code = n := by
  unfold Topology.ofCode at h; split at h <;> cases h <;> rfl

theorem Response.code_of_ofCode {n : Nat} {r : Response} (h : Response.ofCode n = some r) : r.code = n := by
  unfold Response.ofCode at h; split at h <;> cases h <;> rfl

theorem DelayMode.code_of_ofCode {n : Nat} {m : DelayMode} (h : DelayMode.ofCode n = some m) : m.code = n := by
  unfold DelayMode.ofCode at h; split at h <;> cases h <;> rfl

theorem Division.code_of_ofCode {n : Nat} {d : Division} (h : Division.ofCode n = some d) : d.code = n := by
  unfold Division.ofCode at h; split at h <;> cases h <;> rfl

theorem EffectMode.code_of_ofCode {n : Nat} {m : EffectMode} (h : EffectMode.ofCode n = some m) : m.code = n := by
  unfold EffectMode.ofCode at h; split at h <;> cases h <;> rfl

/-! ### A field register reads as the word whose fields it holds -/

theorem bitAt_bitOf (v : Word) (i : Nat) : bitAt (bitOf v i) i = v.toNat / 2 ^ i % 2 * 2 ^ i := by
  rw [bitAt, bitOf, BitVec.getLsbD, Nat.testBit_eq_decide_div_mod_eq]
  have : v.toNat / 2 ^ i % 2 = 0 ∨ v.toNat / 2 ^ i % 2 = 1 := by omega
  obtain h | h := this <;> simp [h]

theorem lt_of_and_low_eq {n : Nat} {m v : Word} (hm : m.toNat = 2 ^ n - 1) (h : v &&& m = v) : v.toNat < 2 ^ n := by
  rw [← h, toNat_and_low hm]
  exact Nat.mod_lt _ (Nat.two_pow_pos n)

theorem ofNat_eq_of_toNat {n : Nat} {v : Word} (h : n = v.toNat) : BitVec.ofNat 64 n = v := by
  rw [h, BitVec.ofNat_toNat, BitVec.setWidth_eq]

theorem Ctrl.toWord_of_ofWord {v : Word} {c : Ctrl} (h : Ctrl.ofWord v = some c) (hmask : v &&& 0x1F = v) :
    c.toWord = v := by
  have hlt := lt_of_and_low_eq (n := 5) rfl hmask
  obtain rfl := Option.some.inj h
  refine ofNat_eq_of_toNat ?_
  simp only [bitAt_bitOf]
  omega

theorem OscCtrl.toWord_of_ofWord {v : Word} {c : OscCtrl} (h : OscCtrl.ofWord v = some c) (hmask : v &&& 0x3FFF = v) :
    c.toWord = v := by
  have hlt := lt_of_and_low_eq (n := 14) rfl hmask
  unfold OscCtrl.ofWord at h
  split at h
  case h_2 => cases h
  case h_1 w b hw hb =>
    obtain rfl := Option.some.inj h
    refine ofNat_eq_of_toNat ?_
    simp only [bitAt_bitOf, Wave.code_of_ofCode hw, BandLimit.code_of_ofCode hb, Fin.ofNat, fieldOf]
    omega

theorem FiltCtrl.toWord_of_ofWord {v : Word} {c : FiltCtrl} (h : FiltCtrl.ofWord v = some c) (hmask : v &&& 0xFF = v) :
    c.toWord = v := by
  have hlt := lt_of_and_low_eq (n := 8) rfl hmask
  unfold FiltCtrl.ofWord at h
  split at h
  case h_2 => cases h
  case h_1 t r ht hr =>
    obtain rfl := Option.some.inj h
    refine ofNat_eq_of_toNat ?_
    simp only [bitAt_bitOf, Topology.code_of_ofCode ht, Response.code_of_ofCode hr, Fin.ofNat, fieldOf]
    omega

theorem DlyCtrl.toWord_of_ofWord {v : Word} {c : DlyCtrl} (h : DlyCtrl.ofWord v = some c) (hmask : v &&& 0x1FF = v) :
    c.toWord = v := by
  have hlt := lt_of_and_low_eq (n := 9) rfl hmask
  unfold DlyCtrl.ofWord at h
  split at h
  case h_2 => cases h
  case h_1 m d hm hd =>
    obtain rfl := Option.some.inj h
    refine ofNat_eq_of_toNat ?_
    simp only [bitAt_bitOf, DelayMode.code_of_ofCode hm, Division.code_of_ofCode hd, fieldOf]
    omega

theorem EfxCtrl.toWord_of_ofWord {v : Word} {c : EfxCtrl} (h : EfxCtrl.ofWord v = some c) (hmask : v &&& 0xF = v) :
    c.toWord = v := by
  have hlt := lt_of_and_low_eq (n := 4) rfl hmask
  unfold EfxCtrl.ofWord at h
  split at h
  case h_2 => cases h
  case h_1 m r hm hr =>
    obtain rfl := Option.some.inj h
    refine ofNat_eq_of_toNat ?_
    simp only [EffectMode.code_of_ofCode hm, Response.code_of_ofCode hr, fieldOf]
    omega

theorem zeroExtend_truncate_seed {x : Word} (h : x.toNat < 2 ^ 32) : (x.truncate 32).zeroExtend 64 = x := by
  apply BitVec.eq_of_toNat_eq
  simp only [BitVec.truncate_eq_setWidth, BitVec.toNat_setWidth]
  omega

/-! ### The register that is set -/

theorem OscP.read_set_same (p : OscP) {r : OscReg} {x : Word} (h : r.kind.Admits x) : (p.set r x).read r = x := by
  cases r
  case oscCtrl =>
    obtain ⟨hsome, hmask⟩ := h
    obtain ⟨c, hc⟩ := Option.isSome_iff_exists.1 hsome
    simp only [OscP.set, OscP.read, hc, Option.getD_some, OscCtrl.toWord_of_ofWord hc hmask]
  case noiseSeed => exact zeroExtend_truncate_seed h.2
  case fmRatio j | fmLevel j => exact Vector.getElem_set_self j.isLt
  all_goals rfl

theorem FiltP.read_set_same (p : FiltP) {r : FiltReg} {x : Word} (h : r.kind.Admits x) : (p.set r x).read r = x := by
  cases r
  case filtCtrl =>
    obtain ⟨hsome, hmask⟩ := h
    obtain ⟨c, hc⟩ := Option.isSome_iff_exists.1 hsome
    simp only [FiltP.set, FiltP.read, hc, Option.getD_some, FiltCtrl.toWord_of_ofWord hc hmask]
  case formFreq k | formBw k | formGain k => simp [FiltP.set, FiltP.read]
  all_goals rfl

theorem DlyP.read_set_same (p : DlyP) {r : DlyReg} {x : Word} (h : r.kind.Admits x) : (p.set r x).read r = x := by
  cases r
  case dlyCtrl =>
    obtain ⟨hsome, hmask⟩ := h
    obtain ⟨c, hc⟩ := Option.isSome_iff_exists.1 hsome
    simp only [DlyP.set, DlyP.read, hc, Option.getD_some, DlyCtrl.toWord_of_ofWord hc hmask]
  case dnoiseSeed => exact zeroExtend_truncate_seed h.2
  all_goals rfl

theorem EfxP.read_set_same {P : Params} (p : EfxP) {r : EfxReg} {x : Word} (h : (r.kind P).Admits x) :
    (p.set r x).read r = x := by
  cases r
  case efxCtrl =>
    obtain ⟨hsome, hmask⟩ := h
    obtain ⟨c, hc⟩ := Option.isSome_iff_exists.1 hsome
    simp only [EfxP.set, EfxP.read, hc, Option.getD_some, EfxCtrl.toWord_of_ofWord hc hmask]
  case irSeedL | irSeedR => exact zeroExtend_truncate_seed h.2
  all_goals rfl

theorem PBank.read_set_same {P : Params} (b : PBank) {r : PReg} {x : Word} (h : (r.kind P).Admits x) :
    (b.set r x).read r = x := by
  cases r with
  | ctrl => exact Ctrl.toWord_of_ofWord (v := x) rfl h
  | bpm => rfl
  | osc c r =>
    simp only [PBank.set, PBank.read, Fin.getElem_fin, Vector.getElem_set_self]
    exact b.osc[c].read_set_same h
  | filt r => exact b.filt.read_set_same h
  | dly r => exact b.dly.read_set_same h
  | efx r => exact b.efx.read_set_same h

theorem MBank.read_set_same (b : MBank) (r : MReg) (x : Word) : (b.set r x).read r = x := by
  cases r
  case modIn c => exact Vector.getElem_set_self c.isLt
  all_goals rfl

/-! ### The other registers -/

theorem getElem_set_other {α : Type} {n : Nat} (v : Vector α n) {i j : Fin n} (h : j ≠ i) (x : α) :
    (v.set i x)[j] = v[j] :=
  Vector.getElem_set_ne i.isLt j.isLt fun hij => h (Fin.ext hij.symm)

theorem OscP.read_set_other (p : OscP) {r q : OscReg} (h : q ≠ r) (x : Word) : (p.set r x).read q = p.read q := by
  cases r
  case fmRatio j =>
    cases q
    case fmRatio k => exact getElem_set_other p.fmRatio (ne_of_apply_ne _ h) x
    all_goals rfl
  case fmLevel j =>
    cases q
    case fmLevel k => exact getElem_set_other p.fmLevel (ne_of_apply_ne _ h) x
    all_goals rfl
  all_goals cases q <;> first | rfl | exact absurd rfl h

/-- A formant's three registers are fields of one element, so that the others of the same formant are kept with it. -/
theorem FiltP.read_set_other (p : FiltP) {r q : FiltReg} (h : q ≠ r) (x : Word) : (p.set r x).read q = p.read q := by
  cases r
  case formFreq j | formBw j | formGain j =>
    cases q
    case formFreq k | formBw k | formGain k =>
      by_cases hkj : k = j
      · subst hkj
        simp_all [FiltP.set, FiltP.read]
      · simp only [FiltP.set, FiltP.read, getElem_set_other p.formant hkj]
    all_goals rfl
  all_goals cases q <;> first | rfl | exact absurd rfl h

theorem DlyP.read_set_other (p : DlyP) {r q : DlyReg} (h : q ≠ r) (x : Word) : (p.set r x).read q = p.read q := by
  cases r <;> cases q <;> first | rfl | exact absurd rfl h

theorem EfxP.read_set_other (p : EfxP) {r q : EfxReg} (h : q ≠ r) (x : Word) : (p.set r x).read q = p.read q := by
  cases r <;> cases q <;> first | rfl | exact absurd rfl h

theorem PBank.read_set_other (b : PBank) {r q : PReg} (h : q ≠ r) (x : Word) : (b.set r x).read q = b.read q := by
  cases r with
  | ctrl => cases q <;> first | rfl | exact absurd rfl h
  | bpm => cases q <;> first | rfl | exact absurd rfl h
  | osc c r =>
    cases q with
    | osc d q =>
      by_cases hdc : d = c
      · subst hdc
        have hq : q ≠ r := fun hq => h (hq ▸ rfl)
        simp only [PBank.set, PBank.read, Fin.getElem_fin, Vector.getElem_set_self]
        exact OscP.read_set_other _ hq x
      · simp only [PBank.set, PBank.read, getElem_set_other b.osc hdc]
    | _ => rfl
  | filt r =>
    cases q with
    | filt q => exact b.filt.read_set_other (ne_of_apply_ne _ h) x
    | _ => rfl
  | dly r =>
    cases q with
    | dly q => exact b.dly.read_set_other (ne_of_apply_ne _ h) x
    | _ => rfl
  | efx r =>
    cases q with
    | efx q => exact b.efx.read_set_other (ne_of_apply_ne _ h) x
    | _ => rfl

theorem MBank.read_set_other (b : MBank) {r q : MReg} (h : q ≠ r) (x : Word) : (b.set r x).read q = b.read q := by
  cases r
  case modIn c =>
    cases q
    case modIn d => exact getElem_set_other b.modIn (ne_of_apply_ne _ h) x
    all_goals rfl
  all_goals cases q <;> first | rfl | exact absurd rfl h

/-! ### `CSR_WRITE` by the kind of register -/

theorem writeValue_admits {P : Params} (h : 1 ≤ P.maxFir) {r : PReg} {v x : Word} (hx : writeValue (r.kind P) v = some x) :
    (r.kind P).Admits x := (writeValue_eq_some (r.kind_clamps h) hx).1

theorem exec_csrWrite_of_regAt {a : BitVec 12} {r : Reg} (h : regAt a = some r) (v : Word) (s : State) :
    exec (.csrWrite a v) s = .next (writeReg theParams r v s) := by
  simp only [exec, execCsrWrite, csrWrite, h]

theorem writeReg_p {P : Params} {r : PReg} {v x : Word} (hx : writeValue (r.kind P) v = some x) (s : State) :
    writeReg P (.p r) v s = { s with shadowP := s.shadowP.set r x } := by
  simp only [writeReg, hx]

theorem writeReg_m (P : Params) {r : MReg} {v x : Word} (hx : writeValue r.kind v = some x) (s : State) :
    writeReg P (.m r) v s = { s with shadowM := s.shadowM.set r x } := by
  simp only [writeReg, hx]

/-- Settles O16: the command sets the register in the shadow bank to an admitted value, which the register reads as. -/
theorem writeShadowRegister : Obligations.WriteShadowRegister := by
  intro s a v x
  refine ⟨fun r hr hx => ?p, fun r hr hx => ?m⟩
  case p =>
    refine ⟨_, (exec_csrWrite_of_regAt hr v s).trans (congrArg _ (writeReg_p hx s)), ?_, ?_, rfl⟩
    · exact s.shadowP.read_set_same (writeValue_admits one_le_maxFir hx)
    · exact fun q hq => s.shadowP.read_set_other hq x
  case m =>
    refine ⟨_, (exec_csrWrite_of_regAt hr v s).trans (congrArg _ (writeReg_m theParams hx s)), ?_, ?_, rfl⟩
    · exact s.shadowM.read_set_same r x
    · exact fun q hq => s.shadowM.read_set_other hq x

/-- Settles O17: each index names its class D register, which takes the pattern. -/
theorem writeDirectRegister : Obligations.WriteDirectRegister :=
  fun s v =>
    ⟨exec_csrWrite_of_regAt (r := .d .inL) (by decide) v s, exec_csrWrite_of_regAt (r := .d .inR) (by decide) v s,
      exec_csrWrite_of_regAt (r := .d .filtIn) (by decide) v s, exec_csrWrite_of_regAt (r := .d .firAddr) (by decide) v s⟩

/-- Settles O18, by the error's cause: each is the error record alone. -/
theorem writeTurnedAway : Obligations.WriteTurnedAway := by
  intro s a v recorded
  refine ⟨fun hr => ?reserved, fun r hr => ?readOnly, fun r hr hv => ?p, fun r hr hv => ?m⟩
  case reserved =>
    simp only [exec, execCsrWrite, csrWrite, hr]
    rfl
  case readOnly => exact exec_csrWrite_of_regAt hr v s
  case p =>
    rw [exec_csrWrite_of_regAt hr]
    simp only [writeReg, hv]
    rfl
  case m =>
    rw [exec_csrWrite_of_regAt hr]
    simp only [writeReg, hv]
    rfl

/-! ### `CSR_READ` -/

theorem csrRead_of_regAt (P : Params) {a : BitVec 12} {r : Reg} (h : regAt a = some r) (hwindow : r ≠ .d .firData)
    (s : State) : csrRead P a s = respond (readReg P s r) s := by
  unfold csrRead
  rw [h]
  split
  case h_1 h => cases h
  case h_2 h => exact absurd (Option.some.inj h) hwindow
  case h_3 h => rw [Option.some.inj h]

theorem exec_csrRead_of_regAt {a : BitVec 12} {r : Reg} (h : regAt a = some r) (hwindow : r ≠ .d .firData) (s : State) :
    exec (.csrRead a) s = .next (respond (readReg theParams s r) s) :=
  congrArg _ (csrRead_of_regAt theParams h hwindow s)

/-- The block never reads its port (log 1). -/
theorem readReg_port (P : Params) (s : State) (port : Port) (r : Reg) :
    readReg P { s with port := port } r = readReg P s r := by
  cases r with
  | p r => rfl
  | m r => rfl
  | d r => cases r <;> rfl
  | r r => cases r <;> rfl

/-- Settles O21: the read answers a function of everything but the port, which is all that it changes. -/
theorem readIdempotent : Obligations.ReadIdempotent := by
  intro s a hreg hwindow
  obtain ⟨r, hr⟩ := Option.ne_none_iff_exists'.1 hreg
  have hr' : r ≠ .d .firData := fun h => hwindow (h ▸ hr)
  refine ⟨readReg theParams s r, exec_csrRead_of_regAt hr hr' s, fun port => ?_⟩
  rw [exec_csrRead_of_regAt hr hr', readReg_port]
  rfl

end Sys2Proof.Machine

/-! PROOFS. What every step keeps: the operations that commands are made of, a command by command proof that what they all
keep every step keeps, and from it the invariants on the memories, on `STATUS` and `FIR_ADDR` and on the noise generators
(20_memory.md R81, R82, 60_exceptions.md R370, 41_oscillators.md R185). -/

namespace Sys2Proof.Machine

/-! ### The operations that commands are made of -/

/-- Every operation that a command is made of keeps `I`. -/
structure KeptBy (I : State → Prop) : Prop where
  port : ∀ {s : State} (p : Port), I s → I { s with port := p }
  raise : ∀ {s : State} (e : Err), I s → I (raiseErr e s)
  clear : ∀ {s : State}, I s → I (clearErr s)
  inputs : ∀ {s : State} (l r x : F64), I s → I { s with inL := l, inR := r, filtIn := x }
  firAddr : ∀ {s : State} (v : Word), I s → I { s with firAddr := v &&& firAddrMask }
  windowAdvance : ∀ {s : State}, I s → I (windowAdvance s)
  windowWrite : ∀ {s : State} (v : Word), windowOk theParams s = true → I s → I (windowWrite v s)
  setP : ∀ {s : State} (r : PReg) (x : Word), (r.kind theParams).Admits x → I s → I { s with shadowP := s.shadowP.set r x }
  setM : ∀ {s : State} (r : MReg) (x : Word), r.kind.Admits x → I s → I { s with shadowM := s.shadowM.set r x }
  publishP : ∀ {s : State}, I s → I (publishP s)
  publishM : ∀ {s : State}, I s → I (publishM s)
  generateIR : ∀ {s : State}, I s → I (generateIR theParams s)
  loadVowel : ∀ {s : State} (v : Vowel), I s → I (loadVowel theParams v s)
  softReset : ∀ {s : State}, I s → I (softResetState theParams s)
  resetUnit : ∀ {s : State} (u : UnitName), I s → I (resetUnitState u s)
  phaseReset : ∀ {s : State} (c : Chan), I s → I (setOsc c s.osc[c].phaseReset s)
  oscStep : ∀ {s : State} (c : Chan), I s → I (oscStep theParams c s)
  filtStep : ∀ {s : State} (x : F64), I s → I (filtStep theParams x s)
  dlyStep : ∀ {s : State} (l r : F64), I s → I (dlyStep theParams l r s)
  efxStep : ∀ {s : State} (l r : F64), I s → I (efxStep theParams l r s)
  outputs : ∀ {s : State} (mix l r : F64) (n : Word), I s → I { s with oscMix := mix, outL := l, outR := r, tickCount := n }

namespace KeptBy

section
variable {I : State → Prop} (k : KeptBy I) {s : State} (h : I s)
include k h

theorem respond (v : Word) : I (respond v s) := k.port _ h

theorem failRead (e : Err) : I (failRead e s) := k.respond (k.raise e h) 0

theorem illegalWord (w : BitVec 32) : I (illegalWord w s) := by
  obtain ⟨-, hw⟩ | ⟨-, hw⟩ := illegalWord_cases w s <;> rw [hw]
  · exact k.failRead h _
  · exact k.raise _ h

theorem commit : I (commitState theParams s) := by
  obtain ⟨-, hc⟩ | ⟨-, hc⟩ := commitState_cases theParams s <;> rw [hc]
  · exact k.publishP h
  · exact k.generateIR (k.publishP h)

theorem writeD (r : DReg) (v : Word) : I (writeD theParams r v s) := by
  cases r
  case inL | inR | filtIn => exact k.inputs _ _ _ h
  case firAddr => exact k.firAddr v h
  case firData =>
    simp only [Machine.writeD]
    split
    case isTrue hok => exact k.windowAdvance (k.windowWrite v hok h)
    case isFalse => exact k.raise _ h

theorem writeReg (r : Reg) (v : Word) : I (writeReg theParams r v s) := by
  cases r with
  | p r =>
    unfold Machine.writeReg
    dsimp only
    split
    case h_1 x hx => exact k.setP r x (writeValue_admits one_le_maxFir hx) h
    case h_2 => exact k.raise _ h
  | m r =>
    unfold Machine.writeReg
    dsimp only
    split
    case h_1 x hx => exact k.setM r x (writeValue_eq_some r.kind_clamps hx).1 h
    case h_2 => exact k.raise _ h
  | d r => exact k.writeD h r v
  | r r => exact k.raise _ h

theorem csrWrite (a : BitVec 12) (v : Word) : I (csrWrite theParams a v s) := by
  unfold Machine.csrWrite
  split
  case h_1 r _ => exact k.writeReg h r v
  case h_2 => exact k.raise _ h

theorem csrRead (a : BitVec 12) : I (csrRead theParams a s) := by
  unfold Machine.csrRead
  split
  case h_1 => exact k.failRead h _
  case h_2 =>
    split
    case isTrue => exact k.respond (k.windowAdvance h) _
    case isFalse => exact k.failRead h _
  case h_3 => exact k.respond h _

theorem pathFilter (v : F64) : I (pathFilter theParams v s).s := by
  obtain ⟨-, hp⟩ | ⟨-, hp⟩ := pathFilter_cases theParams v s <;> rw [hp]
  · exact k.filtStep v h
  · exact h

omit h in
theorem pathDelay {p : Path} (h : I p.s) : I (pathDelay theParams p).s := by
  obtain ⟨-, hp⟩ | ⟨-, hp⟩ := pathDelay_cases theParams p <;> rw [hp]
  · exact k.dlyStep _ _ h
  · exact h

omit h in
theorem pathEffect {p : Path} (h : I p.s) : I (pathEffect theParams p).s := by
  obtain ⟨-, hp⟩ | ⟨-, hp⟩ := pathEffect_cases theParams p <;> rw [hp]
  · exact k.efxStep _ _ h
  · exact h

omit h in
theorem pathEffects {p : Path} (h : I p.s) : I (pathEffects theParams p).s := by
  unfold Machine.pathEffects
  split
  · exact k.pathDelay (k.pathEffect h)
  · exact k.pathEffect (k.pathDelay h)

theorem tick : I (tickState theParams s) := by
  have hosc : I (stepOscillators theParams s) := k.oscStep 3 (k.oscStep 2 (k.oscStep 1 (k.oscStep 0 h)))
  exact k.outputs _ _ _ _ (k.pathEffects (k.pathFilter (k.outputs _ _ _ _ hosc) _))

theorem exec {i : Instr} {t : State} (ht : exec i s = .next t) : I t := by
  cases i
  case resetUnit sel =>
    simp only [Machine.exec, execResetUnit] at ht
    split at ht <;> obtain rfl := Host.Outcome.next.inj ht
    · exact k.resetUnit _ h
    · exact k.raise _ h
  case oscStep sel =>
    simp only [Machine.exec, execOscStep] at ht
    split at ht <;> obtain rfl := Host.Outcome.next.inj ht
    · exact k.oscStep _ h
    · exact k.raise _ h
  case oscPhaseReset sel =>
    simp only [Machine.exec, execOscPhaseReset] at ht
    split at ht <;> obtain rfl := Host.Outcome.next.inj ht
    · exact k.phaseReset _ h
    · exact k.raise _ h
  case vowelLoad sel =>
    simp only [Machine.exec, execVowelLoad] at ht
    split at ht <;> obtain rfl := Host.Outcome.next.inj ht
    · exact k.loadVowel _ h
    · exact k.raise _ h
  all_goals obtain rfl := Host.Outcome.next.inj ht
  case nop => exact h
  case tick => exact k.tick h
  case commit => exact k.commit h
  case modtick => exact k.publishM h
  case softReset => exact k.softReset h
  case clrErr => exact k.clear h
  case filtProc => exact k.filtStep _ h
  case dlyProc => exact k.dlyStep _ _ h
  case efxProc => exact k.efxStep _ _ h
  case irGen => exact k.generateIR h
  case csrWrite a v => exact k.csrWrite h a v
  case csrRead a => exact k.csrRead h a

/-- What every operation keeps, every step keeps. -/
theorem step {t : State} (ht : step s = .next t) : I t := by
  obtain ⟨-, rfl⟩ | ⟨x, rest, i, -, -, hexec⟩ | ⟨x, rest, why, -, -, rfl⟩ := step_cases ht
  · exact h
  · exact k.exec (k.port _ h) hexec
  · exact k.illegalWord (k.port _ h) x.word

end

end KeptBy

/-! ### The memories -/

/-- The voice filter's part of `State.MemoriesOk`. -/
structure FiltState.MemoryOk (P : Params) (f : FiltState) : Prop where
  cline : memWf P.maxComb f.cline = true
  cw : f.cw < P.maxComb

/-- The delay-line unit's part of `State.MemoriesOk`. -/
structure DlyState.MemoryOk (P : Params) (d : DlyState) : Prop where
  bufL : memWf P.maxDly d.bufL = true
  bufR : memWf P.maxDly d.bufR = true
  dw : d.dw < P.maxDly

/-- The effect-filter unit's part of `State.MemoriesOk`. -/
structure EfxState.MemoryOk (P : Params) (e : EfxState) : Prop where
  hL : memWf P.maxFir e.hL = true
  hR : memWf P.maxFir e.hR = true
  histL : memWf P.maxFir e.histL = true
  histR : memWf P.maxFir e.histR = true
  hw : e.hw < P.maxFir

theorem memoriesOk_iff {P : Params} {s : State} :
    s.MemoriesOk P ↔ s.filt.MemoryOk P ∧ s.dly.MemoryOk P ∧ s.efx.MemoryOk P := by
  constructor
  · intro h
    exact ⟨⟨h.mem .comb, h.cw⟩, ⟨h.mem .dbufL, h.mem .dbufR, h.dw⟩,
      ⟨h.mem .hL, h.mem .hR, h.mem .histL, h.mem .histR, h.hw⟩⟩
  · rintro ⟨hf, hd, he⟩
    refine ⟨fun sp => ?_, hf.cw, hd.dw, he.hw⟩
    cases sp
    case comb => exact hf.cline
    case dbufL => exact hd.bufL
    case dbufR => exact hd.bufR
    case hL => exact he.hL
    case hR => exact he.hR
    case histL => exact he.histL
    case histR => exact he.histR

theorem FiltState.memoryOk_topoStep {P : Params} (p : FiltP) (cutoff u rate : F64) {f : FiltState} (h : f.MemoryOk P) :
    (topoStep P p cutoff u rate f).2.MemoryOk P := by
  by_cases hcomb : p.ctrl.topo = .comb
  · rw [topoStep_comb hcomb]
    exact ⟨memWf_memWrite h.cline _ h.cw, nextIndex_lt _ (Nat.zero_lt_of_lt h.cw)⟩
  · obtain ⟨-, -, -, -, -, -, hframe⟩ := topoStep_frame P p cutoff u rate f
    obtain ⟨-, hcw, hcline⟩ := hframe hcomb
    exact ⟨by rw [hcline]; exact h.cline, by rw [hcw]; exact h.cw⟩

theorem FiltState.memoryOk_filtStepState {P : Params} (p : FiltP) (m : MBank) (x : F64) {f : FiltState} (h : f.MemoryOk P) :
    (filtStepState P p m x f).MemoryOk P := by
  have hsub := filtSubSteps_induct (P := P) (p := p) (FiltState.MemoryOk P) (fun u st => memoryOk_topoStep p (cutoffEff p m) u
    (filtRate P p.ctrl)) (2 ^ p.ctrl.fovs.val) 0 (f0, f) h (xprev := f.xprev) (xd := fmul p.drive x) (m := 2 ^ p.ctrl.fovs.val)
  exact ⟨hsub.cline, hsub.cw⟩

theorem DlyState.memoryOk_dlyStepState {P : Params} (q : DlyP) (bpm : F64) (analog : Bool) (l r : F64) {d : DlyState}
    (h : d.MemoryOk P) : (dlyStepState P q bpm analog l r d).MemoryOk P :=
  ⟨memWf_memWrite h.bufL _ h.dw, memWf_memWrite h.bufR _ h.dw, nextIndex_lt _ (Nat.zero_lt_of_lt h.dw)⟩

theorem EfxState.memoryOk_efxStepState {P : Params} (q : EfxP) (l r : F64) {e : EfxState} (h : e.MemoryOk P) :
    (efxStepState P q l r e).MemoryOk P := by
  obtain ⟨w, hstep, ⟨-, rfl⟩ | ⟨-, rfl⟩ | ⟨-, rfl⟩⟩ := efxStepState_cases P q l r e <;> rw [hstep]
  · exact ⟨h.hL, h.hR, h.histL, h.histR, h.hw⟩
  · exact ⟨h.hL, h.hR, h.histL, h.histR, h.hw⟩
  · exact ⟨h.hL, h.hR, memWf_memWrite h.histL _ h.hw, memWf_memWrite h.histR _ h.hw,
      nextIndex_lt _ (Nat.zero_lt_of_lt h.hw)⟩

theorem filtResetState_memoryOk : filtResetState.MemoryOk theParams := ⟨rfl, one_le_maxComb⟩

theorem dlyResetState_memoryOk (seed : U32) : (dlyResetState seed).MemoryOk theParams :=
  ⟨rfl, rfl, Nat.zero_lt_of_lt parametersValid.maxDly_least⟩

theorem resetState_efx_memoryOk : (resetState theParams).efx.MemoryOk theParams :=
  ⟨memWf_reset .hL, memWf_reset .hR, rfl, rfl, one_le_maxFir⟩

/-- The coefficient window is inside its memory where it writes. -/
theorem EfxState.memoryOk_windowWrite {s : State} (v : Word) (hok : windowOk theParams s = true)
    (h : s.efx.MemoryOk theParams) : (windowWrite v s).efx.MemoryOk theParams := by
  have hidx : firIndex s.firAddr < theParams.maxFir := of_decide_eq_true hok
  rw [windowWrite_efx]
  refine ⟨?_, ?_, h.histL, h.histR, h.hw⟩ <;> dsimp only <;> split
  · exact h.hL
  · exact memWf_memWrite h.hL v hidx
  · exact memWf_memWrite h.hR v hidx
  · exact h.hR

theorem memoriesOk_kept : KeptBy fun s =>
    s.filt.MemoryOk theParams ∧ s.dly.MemoryOk theParams ∧ s.efx.MemoryOk theParams where
  port _ h := h
  raise _ h := h
  clear h := h
  inputs _ _ _ h := h
  firAddr _ h := h
  windowAdvance h := h
  windowWrite v hok h := by
    obtain ⟨hf, hd, he⟩ := h
    rw [windowWrite_filt, windowWrite_dly]
    exact ⟨hf, hd, EfxState.memoryOk_windowWrite v hok he⟩
  setP _ _ _ h := h
  setM _ _ _ h := h
  publishP h := h
  publishM h := h
  generateIR h := by
    obtain ⟨hf, hd, he⟩ := h
    exact ⟨hf, hd, memWf_impulseResponse _ _ _ _ one_le_maxFir, memWf_impulseResponse _ _ _ _ one_le_maxFir, he.histL,
      he.histR, he.hw⟩
  loadVowel _ h := h
  softReset _ := ⟨filtResetState_memoryOk, dlyResetState_memoryOk _, resetState_efx_memoryOk⟩
  resetUnit u h := by
    obtain ⟨hf, hd, he⟩ := h
    cases u with
    | osc c => exact ⟨hf, hd, he⟩
    | filt => exact ⟨filtResetState_memoryOk, hd, he⟩
    | dly => exact ⟨hf, dlyResetState_memoryOk _, he⟩
    | efx => exact ⟨hf, hd, he.hL, he.hR, rfl, rfl, one_le_maxFir⟩
  phaseReset _ h := h
  oscStep _ h := h
  filtStep x h := h.imp_left (FiltState.memoryOk_filtStepState _ _ x)
  dlyStep l r h := h.imp_right (And.imp_left (DlyState.memoryOk_dlyStepState _ _ _ l r))
  efxStep l r h := h.imp_right (And.imp_right (EfxState.memoryOk_efxStepState _ l r))
  outputs _ _ _ _ h := h

/-- Settles O51: of the operations the three unit steps, the generation and the window write memories, each inside its
memory, and the resets clear them. -/
theorem memoriesKept : Obligations.MemoriesKept := by
  intro s t h hstep
  rw [memoriesOk_iff] at h ⊢
  exact memoriesOk_kept.step h hstep

/-! ### `STATUS` and `FIR_ADDR` -/

theorem recordErr_ok (e : Err) {status : Word} (h : status = 0 ∨ ∃ e, status = statusOf e) :
    recordErr e status = 0 ∨ ∃ e', recordErr e status = statusOf e' := by
  obtain ⟨-, hr⟩ | ⟨-, hr⟩ := recordErr_cases e status <;> rw [hr]
  · exact h
  · exact .inr ⟨e, rfl⟩

theorem toNat_and_firAddrMask (v : Word) : (v &&& firAddrMask).toNat < 2 ^ 33 := by
  rw [toNat_and_low (n := 33) rfl]
  exact Nat.mod_lt _ (by decide)

theorem firAdvance_lt {a : Word} (h : a.toNat < 2 ^ 33) : (firAdvance a).toNat < 2 ^ 33 := by
  rw [firAdvance_toNat]
  omega

theorem resetState_fieldsOk (P : Params) : (resetState P).FieldsOk := ⟨.inl rfl, show (0 : Word).toNat < 2 ^ 33 by decide⟩

theorem fieldsOk_kept : KeptBy State.FieldsOk where
  port _ h := ⟨h.status, h.firAddr⟩
  raise e h := ⟨recordErr_ok e h.status, h.firAddr⟩
  clear h := ⟨.inl rfl, h.firAddr⟩
  inputs _ _ _ h := ⟨h.status, h.firAddr⟩
  firAddr v h := ⟨h.status, toNat_and_firAddrMask v⟩
  windowAdvance h := ⟨h.status, firAdvance_lt h.firAddr⟩
  windowWrite v _ h := ⟨by rw [windowWrite_status]; exact h.status, by rw [windowWrite_firAddr]; exact h.firAddr⟩
  setP _ _ _ h := ⟨h.status, h.firAddr⟩
  setM _ _ _ h := ⟨h.status, h.firAddr⟩
  publishP h := ⟨h.status, h.firAddr⟩
  publishM h := ⟨h.status, h.firAddr⟩
  generateIR h := ⟨h.status, h.firAddr⟩
  loadVowel _ h := ⟨h.status, h.firAddr⟩
  softReset _ := ⟨.inl rfl, (resetState_fieldsOk theParams).firAddr⟩
  resetUnit u h := by cases u <;> exact ⟨h.status, h.firAddr⟩
  phaseReset _ h := ⟨h.status, h.firAddr⟩
  oscStep _ h := ⟨h.status, h.firAddr⟩
  filtStep _ h := ⟨h.status, h.firAddr⟩
  dlyStep _ _ h := ⟨h.status, h.firAddr⟩
  efxStep _ _ h := ⟨h.status, h.firAddr⟩
  outputs _ _ _ _ h := ⟨h.status, h.firAddr⟩

/-! ### Seeds and noise generators -/

theorem eq_zero_of_shiftLeft {w k : Nat} (hk : 0 < k) {x : BitVec w} (h : x = x <<< k) : x = 0 := by
  have hbit : ∀ n i, i < n → x.getLsbD i = false := by
    intro n
    induction n with
    | zero => exact fun i hi => absurd hi (Nat.not_lt_zero i)
    | succ n ih =>
      intro i hi
      rw [h, BitVec.getLsbD_shiftLeft]
      by_cases hik : i < k
      · simp [hik]
      · simp [ih (i - k) (by omega)]
  exact BitVec.eq_of_getLsbD_eq fun i hi => (hbit (i + 1) i (Nat.lt_succ_self i)).trans BitVec.getLsbD_zero.symm

theorem eq_zero_of_ushiftRight {w k : Nat} (hk : 0 < k) {x : BitVec w} (h : x = x >>> k) : x = 0 := by
  have hval : x.toNat = x.toNat / 2 ^ k := by
    conv_lhs => rw [h, BitVec.toNat_ushiftRight, Nat.shiftRight_eq_div_pow]
  have htwo : 2 ≤ 2 ^ k := Nat.le_self_pow hk.ne' 2
  refine BitVec.eq_of_toNat_eq ?_
  by_contra hne
  have := Nat.div_lt_self (Nat.pos_of_ne_zero hne) htwo
  omega

/-- Each of the three shifts moves a bit that is set, so none of the three steps cancels its argument. -/
theorem xorshift_ne_zero {x : U32} (h : x ≠ 0) : xorshift x ≠ 0 := by
  have hleft (y : U32) {k : Nat} (hk : 0 < k) (hy : y ≠ 0) : y ^^^ (y <<< k) ≠ 0 := fun h0 =>
    hy (eq_zero_of_shiftLeft hk (BitVec.xor_eq_zero_iff.1 h0))
  have hright (y : U32) {k : Nat} (hk : 0 < k) (hy : y ≠ 0) : y ^^^ (y >>> k) ≠ 0 := fun h0 =>
    hy (eq_zero_of_ushiftRight hk (BitVec.xor_eq_zero_iff.1 h0))
  exact hleft _ (by decide) (hright _ (by decide) (hleft x (by decide) h))

/-- No seed of a bank is 0, as the registers read. -/
def PBank.SeedsOk (b : PBank) : Prop := ∀ r : PReg, r.kind theParams = .seed → b.read r ≠ 0

theorem zeroExtend_seed_ne_zero_iff (x : U32) : x.zeroExtend 64 ≠ 0 ↔ x ≠ 0 := by
  rw [ne_eq, ne_eq, BitVec.toNat_eq, BitVec.toNat_eq, BitVec.toNat_setWidth_of_le (by decide)]
  rfl

theorem PBank.seedsOk_iff (b : PBank) :
    b.SeedsOk ↔ (∀ c : Chan, b.osc[c].noiseSeed ≠ 0) ∧ b.dly.noiseSeed ≠ 0 ∧ b.efx.irSeedL ≠ 0 ∧ b.efx.irSeedR ≠ 0 := by
  simp only [← zeroExtend_seed_ne_zero_iff]
  constructor
  · intro h
    exact ⟨fun c => h (.osc c .noiseSeed) rfl, h (.dly .dnoiseSeed) rfl, h (.efx .irSeedL) rfl, h (.efx .irSeedR) rfl⟩
  · rintro ⟨hosc, hdly, hl, hr⟩ r hkind
    cases r with
    | ctrl => cases hkind
    | bpm => cases hkind
    | osc c r => cases r <;> first | exact hosc c | cases hkind
    | filt r => cases r <;> cases hkind
    | dly r => cases r <;> first | exact hdly | cases hkind
    | efx r => cases r <;> first | exact hl | exact hr | cases hkind

theorem PBank.SeedsOk.set {b : PBank} (h : b.SeedsOk) {r : PReg} {x : Word} (hx : (r.kind theParams).Admits x) :
    (b.set r x).SeedsOk := by
  intro q hq
  by_cases hqr : q = r
  · subst hqr
    rw [b.read_set_same hx]
    rw [hq] at hx
    exact hx.1
  · rw [b.read_set_other hqr]
    exact h q hq

theorem PBank.SeedsOk.withFirLen {b : PBank} (h : b.SeedsOk) (len : Word) : (b.withFirLen len).SeedsOk := by
  rw [PBank.seedsOk_iff] at h ⊢
  exact h

theorem resetPBank_osc (P : Params) (c : Chan) : (resetPBank P).osc[c] = resetOscP c := by
  match c with
  | 0 | 1 | 2 | 3 => rfl

theorem resetState_osc (P : Params) (c : Chan) : (resetState P).osc[c] = oscResetState (resetNoiseSeed c) := by
  match c with
  | 0 | 1 | 2 | 3 => rfl

theorem resetNoiseSeed_ne_zero (c : Chan) : resetNoiseSeed c ≠ 0 := by decide +revert

theorem resetPBank_seedsOk (P : Params) : (resetPBank P).SeedsOk := by
  refine (PBank.seedsOk_iff _).2 ⟨fun c => ?osc, ?dly, ?irL, ?irR⟩
  case osc => rw [resetPBank_osc]; exact resetNoiseSeed_ne_zero c
  case dly => exact (by decide : (0x6A09E667 : U32) ≠ 0)
  case irL => exact (by decide : (0xBB67AE85 : U32) ≠ 0)
  case irR => exact (by decide : (0x3C6EF372 : U32) ≠ 0)

theorem PBank.SeedsOk.loadVowel {s : State} (h : s.shadowP.SeedsOk) (P : Params) (v : Vowel) :
    (loadVowel P v s).shadowP.SeedsOk := by
  rw [PBank.seedsOk_iff] at h ⊢
  exact h

theorem evalWave_noise_ne_zero (P : Params) (p : OscP) (ph dts : F64) {o : OscState} (h : o.noise ≠ 0) :
    (evalWave P p ph dts o).2.noise ≠ 0 := by
  obtain ⟨-, he⟩ | ⟨-, he⟩ | ⟨-, -, he⟩ := evalWave_cases P p ph dts o <;> rw [he]
  · exact xorshift_ne_zero h
  · exact h
  · exact h

theorem advancePhase_noise (dts : F64) (o : OscState) : (advancePhase dts o).1.noise = o.noise := by
  obtain ⟨-, ha⟩ | ⟨-, ha⟩ := advancePhase_cases dts o <;> rw [ha]

theorem syncPhase_noise (p : OscP) (prev : Option OscState) (o : OscState) : (syncPhase p prev o).noise = o.noise := by
  unfold syncPhase
  split
  · split <;> rfl
  · rfl

theorem oscStepState_noise_ne_zero (P : Params) (p : OscP) (modIn : F64) (prev : Option OscState) {o : OscState}
    (h : o.noise ≠ 0) : (oscStepState P p modIn prev o).noise ≠ 0 := by
  cases hen : p.ctrl.en
  case false => rw [oscStepState_disabled hen]; exact h
  case true =>
    rw [oscStepState_enabled hen]
    refine subSteps_induct (fun r => r.st.noise ≠ 0) (fun r hr => ?_) _ _ ?_
    · rw [subStep, advancePhase_noise]
      exact evalWave_noise_ne_zero P p _ _ hr
    · rw [syncPhase_noise]
      exact h

theorem dlyStepState_noise_ne_zero (P : Params) (q : DlyP) (bpm : F64) (analog : Bool) (l r : F64) {d : DlyState}
    (h : d.noise ≠ 0) : (dlyStepState P q bpm analog l r d).noise ≠ 0 := by
  change (colour P q analog _ _ d).st.noise ≠ 0
  obtain ⟨hbbd, -⟩ | ⟨hkept, -⟩ := colour_state P q analog (tap P d.bufL d.dw (lengths P q bpm analog d).1)
    (tap P d.bufR d.dw (lengths P q bpm analog d).2) d
  · rw [hbbd]
    exact xorshift_ne_zero (xorshift_ne_zero h)
  · rw [hkept]
    exact h

theorem noiseOk_iff {s : State} :
    s.NoiseOk ↔ s.shadowP.SeedsOk ∧ s.activeP.SeedsOk ∧ (∀ c : Chan, s.osc[c].noise ≠ 0) ∧ s.dly.noise ≠ 0 := by
  simp only [PBank.seedsOk_iff]
  constructor
  · intro h
    exact ⟨⟨h.shadowOsc, h.shadowDly, h.shadowIr⟩, ⟨h.activeOsc, h.activeDly, h.activeIr⟩, h.osc, h.dly⟩
  · rintro ⟨⟨hso, hsd, hsi⟩, ⟨hao, had, hai⟩, ho, hd⟩
    exact ⟨hso, hao, hsd, had, hsi, hai, ho, hd⟩

/-- What holds of every channel holds after one channel is replaced by a state it holds of. -/
theorem forall_osc_set {s : State} {c : Chan} {o : OscState} {C : OscState → Prop} (h : ∀ d : Chan, C s.osc[d]) (ho : C o)
    (d : Chan) : C (s.osc.set c o)[d] := by
  by_cases hdc : d = c
  · subst hdc
    rwa [Fin.getElem_fin, Vector.getElem_set_self]
  · rw [getElem_set_other s.osc hdc]
    exact h d

theorem noiseOk_kept : KeptBy fun s =>
    s.shadowP.SeedsOk ∧ s.activeP.SeedsOk ∧ (∀ c : Chan, s.osc[c].noise ≠ 0) ∧ s.dly.noise ≠ 0 where
  port _ h := h
  raise _ h := h
  clear h := h
  inputs _ _ _ h := h
  firAddr _ h := h
  windowAdvance h := h
  windowWrite v _ h := by simpa only [windowWrite_shadowP, windowWrite_activeP, windowWrite_osc, windowWrite_dly] using h
  setP _ _ hx h := h.imp_left fun hs => hs.set hx
  setM _ _ _ h := h
  publishP h := ⟨h.1, h.1, h.2.2⟩
  publishM h := h
  generateIR h := ⟨h.1.withFirLen _, h.2.1.withFirLen _, h.2.2⟩
  loadVowel v h := h.imp_left fun hs => hs.loadVowel theParams v
  softReset _ := by
    refine ⟨resetPBank_seedsOk _, resetPBank_seedsOk _, fun c => ?_, (by decide : (0x6A09E667 : U32) ≠ 0)⟩
    rw [softResetState_osc, resetState_osc]
    exact resetNoiseSeed_ne_zero c
  resetUnit u h := by
    obtain ⟨hs, ha, ho, hd⟩ := h
    have hseeds := (PBank.seedsOk_iff _).1 ha
    cases u with
    | osc c => exact ⟨hs, ha, forall_osc_set (C := fun o => o.noise ≠ 0) ho (hseeds.1 c), hd⟩
    | filt => exact ⟨hs, ha, ho, hd⟩
    | dly => exact ⟨hs, ha, ho, hseeds.2.1⟩
    | efx => exact ⟨hs, ha, ho, hd⟩
  phaseReset c h := by
    obtain ⟨hs, ha, ho, hd⟩ := h
    exact ⟨hs, ha, forall_osc_set (C := fun o => o.noise ≠ 0) ho (ho c), hd⟩
  oscStep c h := by
    obtain ⟨hs, ha, ho, hd⟩ := h
    exact ⟨hs, ha, forall_osc_set (C := fun o => o.noise ≠ 0) ho (oscStepState_noise_ne_zero _ _ _ _ (ho c)), hd⟩
  filtStep _ h := h
  dlyStep l r h := by
    obtain ⟨hs, ha, ho, hd⟩ := h
    exact ⟨hs, ha, ho, dlyStepState_noise_ne_zero _ _ _ _ l r hd⟩
  efxStep _ _ h := h
  outputs _ _ _ _ h := h

/-- Settles O52: errors are recorded by their codes, the window's address keeps its width, and a generator is reseeded from
a seed or drawn from, which a generator not at 0 survives. -/
theorem fieldsAndNoiseKept : Obligations.FieldsAndNoiseKept := by
  intro s t hstep
  refine ⟨fun h => fieldsOk_kept.step h hstep, fun h => ?_⟩
  rw [noiseOk_iff] at h ⊢
  exact noiseOk_kept.step h hstep

end Sys2Proof.Machine

/-! PROOFS. Every step keeps the parameters in their ranges and the phases in `[0, 1)`; the reset state satisfies every
invariant, and so does every state of a run from a state in order (40_host_commands.md R135, 41_oscillators.md R175,
60_exceptions.md R374). -/

namespace Sys2Proof.Machine

/-! ### Parameters -/

theorem PBank.InRange.set {P : Params} {b : PBank} (h : b.InRange P) {r : PReg} {x : Word} (hx : (r.kind P).Admits x) :
    (b.set r x).InRange P := by
  intro q
  by_cases hqr : q = r
  · subst hqr
    rwa [b.read_set_same hx]
  · rw [b.read_set_other hqr]
    exact h q

theorem MBank.InRange.set {b : MBank} (h : b.InRange) {r : MReg} {x : Word} (hx : r.kind.Admits x) :
    (b.set r x).InRange := by
  intro q
  by_cases hqr : q = r
  · subst hqr
    rwa [b.read_set_same]
  · rw [b.read_set_other hqr]
    exact h q

theorem firLenWord_admits {P : Params} (h : 1 ≤ P.maxFir) (decay : F64) :
    (RegKind.i64 1 P.maxFir).Admits (firLenWord (irLength P decay)) := by
  have := irLength_mem P decay h
  simp only [RegKind.Admits, firLenWord_toInt]
  omega

theorem PBank.InRange.withFirLen {P : Params} {b : PBank} (h : b.InRange P) {len : Word}
    (hlen : (RegKind.i64 1 P.maxFir).Admits len) : (b.withFirLen len).InRange P := by
  intro r
  cases r with
  | efx r =>
    cases r
    case firLenL | firLenR => exact hlen
    case efxCtrl => exact h (.efx .efxCtrl)
    all_goals exact h (.efx _)
  | ctrl => exact h .ctrl
  | bpm => exact h .bpm
  | osc c r => exact h (.osc c r)
  | filt r => exact h (.filt r)
  | dly r => exact h (.dly r)

theorem getElem_three {α : Type} (f : Fin 3 → α) (k : Fin 3) : #v[f 0, f 1, f 2][k] = f k := by
  match k with
  | 0 | 1 | 2 => rfl

/-- Formants of the vowel table are in the registers' ranges (00_scope.md R10). -/
theorem PBank.InRange.withVowel {P : Params} {b : PBank} (h : b.InRange P) (hP : P.Valid) (v : Vowel) :
    PBank.InRange P { b with filt := { b.filt with formant := #v[P.vowel v 0, P.vowel v 1, P.vowel v 2] } } := by
  intro r
  cases r with
  | filt r =>
    cases r
    case formFreq k =>
      simp only [PBank.read, FiltP.read, getElem_three (P.vowel v) k]
      exact hP.vowel_freq v k
    case formBw k =>
      simp only [PBank.read, FiltP.read, getElem_three (P.vowel v) k]
      exact hP.vowel_bw v k
    case formGain k =>
      simp only [PBank.read, FiltP.read, getElem_three (P.vowel v) k]
      exact hP.vowel_gain v k
    all_goals exact h (.filt _)
  | ctrl => exact h .ctrl
  | bpm => exact h .bpm
  | osc c r => exact h (.osc c r)
  | dly r => exact h (.dly r)
  | efx r => exact h (.efx r)

/-! ### The reset banks -/

theorem resetOscP_admits (c : Chan) (r : OscReg) : r.kind.Admits ((resetOscP c).read r) := by
  cases r
  case noiseSeed =>
    simp only [OscReg.kind, RegKind.Admits, OscP.read, resetOscP]
    decide +revert
  case fmRatio j =>
    simp only [OscReg.kind, RegKind.Admits, OscP.read, resetOscP, Fin.getElem_fin, Vector.getElem_replicate]
    decide
  case fmLevel j =>
    simp only [OscReg.kind, f64Range, RegKind.Admits, OscP.read, resetOscP, Fin.getElem_fin, Vector.getElem_replicate]
    decide
  all_goals
    simp only [OscReg.kind, f64Range, RegKind.Admits, OscP.read, resetOscP]
    decide

theorem resetFiltP_admits {P : Params} (hP : P.Valid) (r : FiltReg) : r.kind.Admits ((resetFiltP P).read r) := by
  cases r
  case formFreq k =>
    simp only [FiltP.read, resetFiltP, getElem_three (P.vowel .a) k]
    exact hP.vowel_freq .a k
  case formBw k =>
    simp only [FiltP.read, resetFiltP, getElem_three (P.vowel .a) k]
    exact hP.vowel_bw .a k
  case formGain k =>
    simp only [FiltP.read, resetFiltP, getElem_three (P.vowel .a) k]
    exact hP.vowel_gain .a k
  all_goals
    simp only [FiltReg.kind, f64Range, RegKind.Admits, FiltP.read, resetFiltP]
    decide

theorem resetDlyP_admits (r : DlyReg) : r.kind.Admits (resetDlyP.read r) := by
  cases r <;> simp only [DlyReg.kind, f64Range, RegKind.Admits, DlyP.read, resetDlyP] <;> decide

theorem resetEfxP_admits {P : Params} (h : 1 ≤ P.maxFir) (r : EfxReg) : (r.kind P).Admits ((resetEfxP P).read r) := by
  cases r
  case firLenL | firLenR => exact firLenWord_admits h f1
  all_goals
    simp only [EfxReg.kind, f64Range, RegKind.Admits, EfxP.read, resetEfxP]
    decide

theorem resetPBank_inRange {P : Params} (hP : P.Valid) : (resetPBank P).InRange P := by
  intro r
  cases r with
  | ctrl => exact (by decide : (0x10 : Word) &&& 0x1F = 0x10)
  | bpm => exact (by decide : inRange (ofInt 1) (ofInt 300) (ofInt 120) = true)
  | osc c r =>
    simp only [PBank.read, resetPBank_osc]
    exact resetOscP_admits c r
  | filt r => exact resetFiltP_admits hP r
  | dly r => exact resetDlyP_admits r
  | efx r => exact resetEfxP_admits hP.maxFir_least r

theorem resetMBank_inRange : resetMBank.InRange := by
  intro r
  cases r
  case modIn c =>
    simp only [MReg.kind, f64Range, RegKind.Admits, MBank.read, resetMBank, Fin.getElem_fin, Vector.getElem_replicate]
    decide
  all_goals
    simp only [MReg.kind, f64Range, RegKind.Admits, MBank.read, resetMBank]
    decide

theorem resetState_parametersOk {P : Params} (hP : P.Valid) : (resetState P).ParametersOk P :=
  ⟨resetPBank_inRange hP, resetPBank_inRange hP, resetMBank_inRange, resetMBank_inRange⟩

theorem parametersOk_kept : KeptBy (State.ParametersOk theParams) where
  port _ h := ⟨h.shadowP, h.activeP, h.shadowM, h.activeM⟩
  raise _ h := ⟨h.shadowP, h.activeP, h.shadowM, h.activeM⟩
  clear h := ⟨h.shadowP, h.activeP, h.shadowM, h.activeM⟩
  inputs _ _ _ h := ⟨h.shadowP, h.activeP, h.shadowM, h.activeM⟩
  firAddr _ h := ⟨h.shadowP, h.activeP, h.shadowM, h.activeM⟩
  windowAdvance h := ⟨h.shadowP, h.activeP, h.shadowM, h.activeM⟩
  windowWrite v _ h := by
    rw [windowWrite_eq]
    exact ⟨h.shadowP, h.activeP, h.shadowM, h.activeM⟩
  setP _ _ hx h := ⟨h.shadowP.set hx, h.activeP, h.shadowM, h.activeM⟩
  setM _ _ hx h := ⟨h.shadowP, h.activeP, h.shadowM.set hx, h.activeM⟩
  publishP h := ⟨h.shadowP, h.shadowP, h.shadowM, h.activeM⟩
  publishM h := ⟨h.shadowP, h.activeP, h.shadowM, h.shadowM⟩
  generateIR h :=
    ⟨h.shadowP.withFirLen (firLenWord_admits one_le_maxFir _), h.activeP.withFirLen (firLenWord_admits one_le_maxFir _),
      h.shadowM, h.activeM⟩
  loadVowel v h := ⟨h.shadowP.withVowel parametersValid v, h.activeP, h.shadowM, h.activeM⟩
  softReset _ :=
    have h := resetState_parametersOk parametersValid
    ⟨h.shadowP, h.activeP, h.shadowM, h.activeM⟩
  resetUnit u h := by cases u <;> exact ⟨h.shadowP, h.activeP, h.shadowM, h.activeM⟩
  phaseReset _ h := ⟨h.shadowP, h.activeP, h.shadowM, h.activeM⟩
  oscStep _ h := ⟨h.shadowP, h.activeP, h.shadowM, h.activeM⟩
  filtStep _ h := ⟨h.shadowP, h.activeP, h.shadowM, h.activeM⟩
  dlyStep _ _ h := ⟨h.shadowP, h.activeP, h.shadowM, h.activeM⟩
  efxStep _ _ h := ⟨h.shadowP, h.activeP, h.shadowM, h.activeM⟩
  outputs _ _ _ _ h := ⟨h.shadowP, h.activeP, h.shadowM, h.activeM⟩

/-- Settles O53: a write stores an admitted value, a vowel's row and a generated length are in their ranges, and the other
operations copy banks or leave them. -/
theorem parametersKept : Obligations.ParametersKept :=
  fun _ _ h hstep => parametersOk_kept.step h hstep

/-! ### Numbers that are not negative and at most a power of two -/

/-- `x` is finite and its number is in `[0, 2 ^ k]`. -/
def UpTo (k : Nat) (x : F64) : Prop := AtMost k x ∧ 0 ≤ ratOf x

theorem MonotoneRounding.nonneg {v : ℚ} {r : F64} (h : MonotoneRounding v r) (hv : 0 ≤ v) : 0 ≤ ratOf r := by
  rw [← ratOf_f0] at hv ⊢
  exact h.ge (by decide) hv

theorem MonotoneRounding.upTo {v : ℚ} {r : F64} (h : MonotoneRounding v r) {k : Nat} (hk : k ≤ 1023) (h0 : 0 ≤ v)
    (hv : v ≤ 2 ^ k) : UpTo k r :=
  ⟨h.atMost hk (by rwa [abs_of_nonneg h0]), h.nonneg h0⟩

theorem UpTo.le {k : Nat} {x : F64} (h : UpTo k x) : ratOf x ≤ 2 ^ k := (le_abs_self _).trans h.1.2

theorem UpTo.mono {j k : Nat} {x : F64} (h : UpTo j x) (hjk : j ≤ k) : UpTo k x := ⟨h.1.mono hjk, h.2⟩

theorem UpTo.fadd {k : Nat} {a b : F64} (ha : UpTo k a) (hb : UpTo k b) (hk : k < 1023) : UpTo (k + 1) (fadd a b) :=
  ⟨ha.1.fadd hb.1 hk, (fadd_monotone ha.1.1 hb.1.1).nonneg (add_nonneg ha.2 hb.2)⟩

theorem UpTo.fmul {j k : Nat} {a b : F64} (ha : UpTo j a) (hb : UpTo k b) (hk : j + k ≤ 1023) : UpTo (j + k) (fmul a b) :=
  ⟨ha.1.fmul hb.1 hk, (fmul_monotone ha.1.1 hb.1.1).nonneg (mul_nonneg ha.2 hb.2)⟩

theorem UpTo.fdiv {k : Nat} {a b : F64} (ha : UpTo k a) (hk : k ≤ 1023) (hb : isFinite b = true) (hb1 : 1 ≤ ratOf b) :
    UpTo k (fdiv a b) :=
  have hpos : 0 < ratOf b := one_pos.trans_le hb1
  (fdiv_monotone ha.1.1 hb hpos.ne').upTo hk (div_nonneg ha.2 hpos.le) ((div_le_self ha.2 hb1).trans ha.le)

theorem InUnit.upTo {x : F64} (h : InUnit x) : UpTo 0 x := ⟨h.atMost, h.2.1⟩

theorem upTo_ofInt {n : Int} {k : Nat} (hk : k ≤ 1023) (h0 : 0 ≤ n) (h : n ≤ 2 ^ k) : UpTo k (ofInt n) :=
  (ofInt_monotone n).upTo hk (by exact_mod_cast h0) (by exact_mod_cast h)

theorem upTo_of_inRange {lo hi x : F64} {k : Nat} (hk : k ≤ 1023) (hlo : UpTo k lo) (hhi : UpTo k hi)
    (h : inRange lo hi x = true) : UpTo k x := by
  have hx := atMost_of_inRange hk hlo.1 hhi.1 h
  exact ⟨hx, hlo.2.trans ((fle_iff_ratOf hlo.1.1 hx.1).1 ((inRange_iff lo hi x).1 h).1)⟩

/-- A register whose range begins at a number in `[0, 1]` and ends at an integer. -/
theorem upTo_of_admits {lo x : F64} {hi : Int} {k : Nat} (h : (RegKind.f64 lo (ofInt hi)).Admits x) (hlo : InUnit lo)
    (hk : k ≤ 1023 := by decide) (h0 : 0 ≤ hi := by decide) (hhi : hi ≤ 2 ^ k := by decide) : UpTo k x :=
  upTo_of_inRange hk (hlo.upTo.mono (Nat.zero_le k)) (upTo_ofInt hk h0 hhi) h

theorem inUnit_f1 : InUnit f1 := inUnit_of_fle (by decide) (by decide)

theorem inUnit_dec_one_two : InUnit (dec 1 2) := inUnit_of_fle (by decide) (by decide)

theorem inUnit_dec_625_4 : InUnit (dec 625 4) := inUnit_of_fle (by decide) (by decide)

theorem one_le_ratOf_fs : 1 ≤ ratOf theParams.fs := by
  obtain ⟨hfin, hval⟩ := ratOf_ofInt (n := 8000) (by decide)
  have h := (fle_iff_ratOf hfin parametersValid.fs_finite).1 parametersValid.fs_least
  rw [hval] at h
  norm_num at h
  linarith

/-- A rate over the sample rate. -/
theorem UpTo.fdiv_fs {k : Nat} {x : F64} (h : UpTo k x) (hk : k ≤ 1023) : UpTo k (Machine.fdiv x theParams.fs) :=
  h.fdiv hk parametersValid.fs_finite one_le_ratOf_fs

/-! ### Phases -/

theorem isPhase_f0 : IsPhase f0 := ⟨by decide, by decide⟩

/-- A phase advanced by what is not negative, and its whole part dropped (43_delay_lines.md R296). -/
theorem IsPhase.frac_fadd {k : Nat} {p x : F64} (hp : IsPhase p) (hx : UpTo k x) (hk : k < 1023) :
    IsPhase (frac (fadd p x)) := by
  have hsum := (hp.inUnit.upTo.mono (Nat.zero_le k)).fadd hx hk
  exact isPhase_frac hsum.1.1 hsum.2

/-- An increment of at most half a turn (41_oscillators.md R174). -/
def IsIncrement (x : F64) : Prop := isFinite x = true ∧ 0 ≤ ratOf x ∧ ratOf x ≤ ratOf fHalf

theorem ratOf_fHalf : ratOf fHalf = 1 / 2 := by
  rw [ratOf, show signBit fHalf = false by decide, show significand fHalf = 2 ^ 52 by decide,
    show exponent fHalf = -53 by decide, signedInt]
  norm_num

theorem one_le_factor (ovs : Fin 4) : isFinite (ofInt ((2 ^ ovs.val : Nat) : Int)) = true ∧
    1 ≤ ratOf (ofInt ((2 ^ ovs.val : Nat) : Int)) := by
  have hle : 2 ^ ovs.val ≤ 2 ^ 3 := Nat.pow_le_pow_right (by decide) (by omega)
  obtain ⟨hfin, hval⟩ := ratOf_ofInt (n := ((2 ^ ovs.val : Nat) : Int)) (by rw [Int.natAbs_natCast]; omega)
  refine ⟨hfin, ?_⟩
  rw [hval]
  exact_mod_cast Nat.one_le_two_pow

/-- The increment of a sub-step: `DT / M`. -/
theorem isIncrement_subStep (P : Params) (p : OscP) (modIn : F64) :
    IsIncrement (fdiv (dtOf P p modIn) (ofInt ((2 ^ p.ctrl.ovs.val : Nat) : Int))) := by
  have hrange : inRange f0 fHalf (dtOf P p modIn) = true := inRange_fmax_fmin (by decide) _
  have hdt := upTo_of_inRange (k := 0) (by decide) isPhase_f0.inUnit.upTo inUnit_fHalf.upTo hrange
  have hhalf := (fle_iff_ratOf hdt.1.1 inUnit_fHalf.1).1 ((inRange_iff _ _ _).1 hrange).2
  obtain ⟨hfin, h1⟩ := one_le_factor p.ctrl.ovs
  have hdiv := hdt.fdiv (by decide) hfin h1
  refine ⟨hdiv.1.1, hdiv.2, ?_⟩
  exact (fdiv_monotone hdt.1.1 hfin (by linarith)).le inUnit_fHalf.1 ((div_le_self hdt.2 h1).trans hhalf)

theorem exists_ratOf_eq_three_halves : ∃ y, isFinite y = true ∧ ratOf y = 3 / 2 := by
  have hval : ((3 : Nat) : ℚ) * 2 ^ (-1 : Int) = 3 / 2 := by norm_num
  have hlt : (3 / 2 : ℚ) < 2 ^ 1024 := lt_trans (by norm_num) (pow_lt_pow_right₀ one_lt_two (by decide : 1 < 1024))
  simpa only [hval] using exists_ratOf_eq (m := 3) (e := -1) (by decide) (by decide) (hval ▸ hlt)

/-- The phase after a sub-step: below 1 without a wrap, at most a half after the one subtraction of a wrap
(41_oscillators.md R175). -/
theorem isPhase_advancePhase {dts : F64} (hd : IsIncrement dts) {o : OscState} (h : IsPhase o.phase) :
    IsPhase (advancePhase dts o).1.phase := by
  obtain ⟨hdfin, hd0, hdhalf⟩ := hd
  rw [ratOf_fHalf] at hdhalf
  obtain ⟨hpfin, hp0, hp1⟩ := h.inUnit
  have hadd := fadd_monotone hpfin hdfin
  have hsum := hadd.upTo (k := 1) (by decide) (by linarith) (by norm_num; linarith)
  obtain ⟨hwrap, ha⟩ | ⟨hno, ha⟩ := advancePhase_cases dts o <;> rw [ha] <;> dsimp only
  case inl =>
    obtain ⟨y, hy, hval⟩ := exists_ratOf_eq_three_halves
    have hle := hadd.le hy (by rw [hval]; linarith)
    have hge := (fle_iff_ratOf (by decide) hsum.1.1).1 hwrap
    rw [hval] at hle
    rw [ratOf_f1] at hge
    have hsub := fsub_monotone hsum.1.1 (b := f1) (by decide)
    rw [ratOf_f1] at hsub
    have hhalf := hsub.le inUnit_fHalf.1 (by rw [ratOf_fHalf]; linarith)
    rw [ratOf_fHalf] at hhalf
    have hfin := (hsub.upTo (k := 0) (by decide) (by linarith) (by norm_num; linarith)).1.1
    exact (isPhase_iff_ratOf hfin).2 ⟨hsub.nonneg (by linarith), by linarith⟩
  case inr =>
    refine (isPhase_iff_ratOf hsum.1.1).2 ⟨hsum.2, ?_⟩
    by_contra hge
    rw [(fle_iff_ratOf (by decide) hsum.1.1).2 (by rw [ratOf_f1]; linarith)] at hno
    exact absurd hno (by decide)

/-! ### The phases of each unit -/

/-- An oscillator channel's part of `State.PhasesOk`. -/
structure OscState.PhaseOk (o : OscState) : Prop where
  phase : IsPhase o.phase
  opPhase : ∀ j : Fin 4, IsPhase o.opPhase[j]

/-- The delay-line unit's part of `State.PhasesOk`. -/
structure DlyState.PhaseOk (d : DlyState) : Prop where
  lfoL : IsPhase d.lfoL
  lfoR : IsPhase d.lfoR
  phWow : IsPhase d.phWow
  phFlut : IsPhase d.phFlut

theorem phasesOk_iff {s : State} :
    s.PhasesOk ↔ (∀ c : Chan, s.osc[c].PhaseOk) ∧ s.dly.PhaseOk ∧ IsPhase s.efx.phLfo := by
  constructor
  · intro h
    exact ⟨fun c => ⟨h.phase c, h.opPhase c⟩, ⟨h.lfoL, h.lfoR, h.phWow, h.phFlut⟩, h.phLfo⟩
  · rintro ⟨ho, hd, he⟩
    exact ⟨fun c => (ho c).phase, fun c => (ho c).opPhase, hd.lfoL, hd.lfoR, hd.phWow, hd.phFlut, he⟩

theorem isPhase_replicate (j : Fin 4) : IsPhase (Vector.replicate 4 f0)[j] := by
  rw [Fin.getElem_fin, Vector.getElem_replicate]
  exact isPhase_f0

theorem oscResetState_phaseOk (seed : U32) : (oscResetState seed).PhaseOk := ⟨isPhase_f0, isPhase_replicate⟩

theorem OscState.phaseReset_phaseOk (o : OscState) : o.phaseReset.PhaseOk := ⟨isPhase_f0, isPhase_replicate⟩

theorem dlyResetState_phaseOk (seed : U32) : (dlyResetState seed).PhaseOk := ⟨isPhase_f0, isPhase_f0, isPhase_f0, isPhase_f0⟩

/-- What the FM operators' advance needs of a channel's registers (10_state.md R39). -/
def OscP.RatiosOk (p : OscP) : Prop := ∀ j : Fin 4, UpTo 5 p.fmRatio[j]

theorem PBank.InRange.ratiosOk {b : PBank} (h : b.InRange theParams) (c : Chan) : b.osc[c].RatiosOk :=
  fun j => upTo_of_admits (h (.osc c (.fmRatio j))) inUnit_dec_625_4

theorem IsIncrement.upTo {x : F64} (h : IsIncrement x) : UpTo 0 x := by
  obtain ⟨hfin, h0, h1⟩ := h
  rw [ratOf_fHalf] at h1
  exact InUnit.upTo ⟨hfin, h0, by linarith⟩

theorem OscState.PhaseOk.evalWave {P : Params} {p : OscP} (hp : p.RatiosOk) {dts : F64} (hd : IsIncrement dts) (ph : F64)
    {o : OscState} (h : o.PhaseOk) : (Machine.evalWave P p ph dts o).2.PhaseOk := by
  obtain ⟨-, he⟩ | ⟨-, he⟩ | ⟨-, -, he⟩ := evalWave_cases P p ph dts o <;> rw [he]
  · exact ⟨h.phase, h.opPhase⟩
  · refine ⟨h.phase, fun j => ?_⟩
    rw [fmEval_state, Fin.getElem_fin, Vector.getElem_ofFn]
    exact (h.opPhase j).frac_fadd ((hp j).fmul hd.upTo (by decide)) (by decide)
  · exact h

theorem OscState.PhaseOk.advancePhase {dts : F64} (hd : IsIncrement dts) {o : OscState} (h : o.PhaseOk) :
    (Machine.advancePhase dts o).1.PhaseOk := by
  refine ⟨isPhase_advancePhase hd h.phase, ?_⟩
  obtain ⟨-, ha⟩ | ⟨-, ha⟩ := advancePhase_cases dts o <;> rw [ha] <;> exact h.opPhase

theorem OscState.PhaseOk.syncPhase (p : OscP) (prev : Option OscState) {o : OscState} (h : o.PhaseOk) :
    (Machine.syncPhase p prev o).PhaseOk := by
  unfold Machine.syncPhase
  split
  · split
    · exact o.phaseReset_phaseOk
    · exact h
  · exact h

theorem OscState.PhaseOk.oscStepState {P : Params} {p : OscP} (hp : p.RatiosOk) (modIn : F64) (prev : Option OscState)
    {o : OscState} (h : o.PhaseOk) : (Machine.oscStepState P p modIn prev o).PhaseOk := by
  cases hen : p.ctrl.en
  case false =>
    rw [oscStepState_disabled hen]
    exact ⟨h.phase, h.opPhase⟩
  case true =>
    rw [oscStepState_enabled hen]
    have hd := isIncrement_subStep P p modIn
    have hsub := subSteps_induct (P := P) (p := p) (fun r => r.st.PhaseOk) (fun r hr => (hr.evalWave hp hd _).advancePhase hd)
      (2 ^ p.ctrl.ovs.val) ⟨Machine.syncPhase p prev o, f0, false⟩ (h.syncPhase p prev)
    exact ⟨hsub.phase, hsub.opPhase⟩

theorem DlyState.PhaseOk.dlyStepState {b : PBank} (hb : b.InRange theParams) (bpm : F64) (analog : Bool) (l r : F64)
    {d : DlyState} (h : d.PhaseOk) : (Machine.dlyStepState theParams b.dly bpm analog l r d).PhaseOk := by
  have hrate : UpTo 4 b.dly.chRate := upTo_of_admits (hb (.dly .chRate)) inUnit_dec_one_two
  have hratio : UpTo 1 b.dly.chRatio := upTo_of_admits (hb (.dly .chRatio)) inUnit_f1
  have hwow : UpTo 3 b.dly.wowRate := upTo_of_admits (hb (.dly .wowRate)) inUnit_dec_one_two
  have hflut : UpTo 5 b.dly.flutRate := upTo_of_admits (hb (.dly .flutRate)) inUnit_f1
  refine ⟨?_, ?_, ?_, ?_⟩
  · rw [dlyStepState_lfoL]
    exact h.lfoL.frac_fadd (hrate.fdiv_fs (by decide)) (by decide)
  · rw [dlyStepState_lfoR]
    exact h.lfoR.frac_fadd ((hrate.fmul hratio (by decide)).fdiv_fs (by decide)) (by decide)
  · rw [dlyStepState_phWow]
    exact h.phWow.frac_fadd (hwow.fdiv_fs (by decide)) (by decide)
  · rw [dlyStepState_phFlut]
    exact h.phFlut.frac_fadd (hflut.fdiv_fs (by decide)) (by decide)

theorem isPhase_efxStepState {b : PBank} (hb : b.InRange theParams) (l r : F64) {e : EfxState} (h : IsPhase e.phLfo) :
    IsPhase (efxStepState theParams b.efx l r e).phLfo := by
  have hrate : UpTo 4 b.efx.phRate := upTo_of_admits (hb (.efx .phRate)) inUnit_dec_one_two
  obtain ⟨w, hstep, ⟨-, rfl⟩ | ⟨-, rfl⟩ | ⟨-, rfl⟩⟩ := efxStepState_cases theParams b.efx l r e <;> rw [hstep]
  · exact h
  · exact h.frac_fadd (hrate.fdiv_fs (by decide)) (by decide)
  · exact h

/-! ### The phases of a state whose parameters are in range -/

theorem phasesOk_kept : KeptBy fun s =>
    s.ParametersOk theParams ∧ (∀ c : Chan, s.osc[c].PhaseOk) ∧ s.dly.PhaseOk ∧ IsPhase s.efx.phLfo where
  port p h := h.imp_left (parametersOk_kept.port p)
  raise e h := h.imp_left (parametersOk_kept.raise e)
  clear h := h.imp_left parametersOk_kept.clear
  inputs l r x h := h.imp_left (parametersOk_kept.inputs l r x)
  firAddr v h := h.imp_left (parametersOk_kept.firAddr v)
  windowAdvance h := h.imp_left parametersOk_kept.windowAdvance
  windowWrite v hok h := by
    refine ⟨parametersOk_kept.windowWrite v hok h.1, ?_⟩
    rw [windowWrite_osc, windowWrite_dly, windowWrite_efx]
    exact h.2
  setP r x hx h := h.imp_left (parametersOk_kept.setP r x hx)
  setM r x hx h := h.imp_left (parametersOk_kept.setM r x hx)
  publishP h := h.imp_left parametersOk_kept.publishP
  publishM h := h.imp_left parametersOk_kept.publishM
  generateIR h := h.imp_left parametersOk_kept.generateIR
  loadVowel v h := h.imp_left (parametersOk_kept.loadVowel v)
  softReset h := by
    refine ⟨parametersOk_kept.softReset h.1, fun c => ?_, dlyResetState_phaseOk _, isPhase_f0⟩
    rw [softResetState_osc, resetState_osc]
    exact oscResetState_phaseOk _
  resetUnit u h := by
    obtain ⟨hp, ho, hd, he⟩ := h
    refine ⟨parametersOk_kept.resetUnit u hp, ?_⟩
    cases u with
    | osc c => exact ⟨forall_osc_set ho (oscResetState_phaseOk _), hd, he⟩
    | filt => exact ⟨ho, hd, he⟩
    | dly => exact ⟨ho, dlyResetState_phaseOk _, he⟩
    | efx => exact ⟨ho, hd, isPhase_f0⟩
  phaseReset c h := by
    obtain ⟨hp, ho, hd, he⟩ := h
    exact ⟨parametersOk_kept.phaseReset c hp, forall_osc_set ho (OscState.phaseReset_phaseOk _), hd, he⟩
  oscStep c h := by
    obtain ⟨hp, ho, hd, he⟩ := h
    exact ⟨parametersOk_kept.oscStep c hp, forall_osc_set ho ((ho c).oscStepState (hp.activeP.ratiosOk c) _ _), hd, he⟩
  filtStep x h := h.imp_left (parametersOk_kept.filtStep x)
  dlyStep l r h := by
    obtain ⟨hp, ho, hd, he⟩ := h
    exact ⟨parametersOk_kept.dlyStep l r hp, ho, hd.dlyStepState hp.activeP _ _ l r, he⟩
  efxStep l r h := by
    obtain ⟨hp, ho, hd, he⟩ := h
    exact ⟨parametersOk_kept.efxStep l r hp, ho, hd, isPhase_efxStepState hp.activeP l r he⟩
  outputs mix l r n h := h.imp_left (parametersOk_kept.outputs mix l r n)

/-- Settles O54: with the parameters in range every rate and increment is bounded and not negative, so an advance that drops
the whole part, or subtracts 1 at a wrap, ends in `[0, 1)`. -/
theorem phasesKept : Obligations.PhasesKept := by
  intro s t hp h hstep
  rw [phasesOk_iff] at h ⊢
  exact (phasesOk_kept.step ⟨hp, h⟩ hstep).2

/-! ### The state after reset, and every state of a run -/

/-- Settles O55: the reset values are in their ranges and nonzero where they must be, the phases are 0, and the memories are
empty or a generation's. -/
theorem resetOk : Obligations.ResetOk where
  parameters := resetState_parametersOk parametersValid
  memories := memoriesOk_iff.2 ⟨filtResetState_memoryOk, dlyResetState_memoryOk _, resetState_efx_memoryOk⟩
  fields := resetState_fieldsOk theParams
  noise := by
    refine noiseOk_iff.2 ⟨resetPBank_seedsOk _, resetPBank_seedsOk _, fun c => ?_, (by decide : (0x6A09E667 : U32) ≠ 0)⟩
    rw [State.reset, resetState_osc]
    exact resetNoiseSeed_ne_zero c
  phases := by
    refine phasesOk_iff.2 ⟨fun c => ?_, dlyResetState_phaseOk _, isPhase_f0⟩
    rw [State.reset, resetState_osc]
    exact oscResetState_phaseOk _

theorem step_next (s : State) : ∃ t, step s = .next t := by
  unfold step
  split
  · exact ⟨s, rfl⟩
  · split
    · exact exec_next _ _
    · exact ⟨_, rfl⟩

theorem run_succ_of_step {M : Host.Core} {s t : M.State} (h : M.step s = .next t) (n : Nat) :
    M.run (n + 1) s = M.run n t := by simp only [Host.Core.run, h]

theorem ok_step {s t : State} (h : State.Ok theParams s) (hstep : step s = .next t) : State.Ok theParams t where
  parameters := parametersKept s t h.parameters hstep
  memories := memoriesKept s t h.memories hstep
  fields := (fieldsAndNoiseKept s t hstep).1 h.fields
  noise := (fieldsAndNoiseKept s t hstep).2 h.noise
  phases := phasesKept s t h.parameters h.phases hstep

/-- Settles O56: by induction on the number of steps, each of which ends in a next state and keeps every invariant. -/
theorem safeRun : Obligations.SafeRun := by
  intro s h n
  induction n generalizing s with
  | zero => exact ⟨s, rfl, h⟩
  | succ n ih =>
    obtain ⟨t, ht⟩ := step_next s
    obtain ⟨u, hu, hok⟩ := ih t (ok_step h ht)
    exact ⟨u, (run_succ_of_step (M := Sys2Proof.core) ht n).trans hu, hok⟩

end Sys2Proof.Machine

/-! PROOFS. The register map: which offsets of each unit's table are reserved, and that a register stands at one index
(10_state.md R31, R32, R39, R44, R50, R56). -/

namespace Sys2Proof.Machine

/-! ### The reserved offsets of each table -/

/-- The reserved offsets of a table whose registers are below `N`. -/
theorem eq_none_iff_of_bound {f : Nat → Option Reg} {N : Nat} {R : Nat → Prop} (hbound : ∀ {n q}, f n = some q → n < N)
    (hbelow : ∀ n < N, f n = none ↔ R n) (habove : ∀ n, N ≤ n → R n) (n : Nat) : f n = none ↔ R n := by
  by_cases hn : n < N
  · exact hbelow n hn
  · refine iff_of_true (Option.eq_none_iff_forall_ne_some.2 fun q hq => hn (hbound hq)) (habove n (Nat.le_of_not_lt hn))

theorem globalReg_bound {n : Nat} {q : Reg} (h : globalReg n = some q) : n < 0x1D := by
  unfold globalReg at h
  split at h <;> first | omega | cases h

theorem globalReg_eq_none_iff (n : Nat) :
    globalReg n = none ↔ (n = 0x06 ∨ n = 0x07) ∨ (0x0B ≤ n ∧ n ≤ 0x0F) ∨ (0x12 ≤ n ∧ n ≤ 0x17) ∨ 0x1D ≤ n :=
  eq_none_iff_of_bound (R := fun n => (n = 0x06 ∨ n = 0x07) ∨ (0x0B ≤ n ∧ n ≤ 0x0F) ∨ (0x12 ≤ n ∧ n ≤ 0x17) ∨ 0x1D ≤ n) globalReg_bound (by decide) (by omega) n

theorem oscReg_bound {c : Chan} {n : Nat} {q : Reg} (h : oscReg c n = some q) : n < 0x22 := by
  unfold oscReg at h
  split at h <;> first | omega | cases h

theorem oscReg_eq_none_iff (c : Chan) (n : Nat) :
    oscReg c n = none ↔ n = 0x17 ∨ 0x22 ≤ n :=
  eq_none_iff_of_bound (R := fun n => n = 0x17 ∨ 0x22 ≤ n) oscReg_bound (by decide +revert) (by omega) n

theorem filtReg_bound {n : Nat} {q : Reg} (h : filtReg n = some q) : n < 0x2C := by
  unfold filtReg at h
  split at h <;> first | omega | cases h

theorem filtReg_eq_none_iff (n : Nat) :
    filtReg n = none ↔ (0x0D ≤ n ∧ n ≤ 0x0F) ∨ (0x19 ≤ n ∧ n ≤ 0x1F) ∨ 0x2C ≤ n :=
  eq_none_iff_of_bound (R := fun n => (0x0D ≤ n ∧ n ≤ 0x0F) ∨ (0x19 ≤ n ∧ n ≤ 0x1F) ∨ 0x2C ≤ n) filtReg_bound (by decide) (by omega) n

theorem dlyReg_bound {n : Nat} {q : Reg} (h : dlyReg n = some q) : n < 0x24 := by
  unfold dlyReg at h
  split at h <;> first | omega | cases h

theorem dlyReg_eq_none_iff (n : Nat) :
    dlyReg n = none ↔ (0x12 ≤ n ∧ n ≤ 0x17) ∨ 0x24 ≤ n :=
  eq_none_iff_of_bound (R := fun n => (0x12 ≤ n ∧ n ≤ 0x17) ∨ 0x24 ≤ n) dlyReg_bound (by decide) (by omega) n

theorem efxReg_bound {n : Nat} {q : Reg} (h : efxReg n = some q) : n < 0x23 := by
  unfold efxReg at h
  split at h <;> first | omega | cases h

theorem efxReg_eq_none_iff (n : Nat) :
    efxReg n = none ↔ (0x11 ≤ n ∧ n ≤ 0x17) ∨ 0x23 ≤ n :=
  eq_none_iff_of_bound (R := fun n => (0x11 ≤ n ∧ n ≤ 0x17) ∨ 0x23 ≤ n) efxReg_bound (by decide) (by omega) n

theorem regAt_eq_none_iff (a : BitVec 12) : regAt a = none ↔ IsReserved a.toNat := by
  have := a.isLt
  unfold regAt IsReserved
  dsimp only
  split
  · rw [globalReg_eq_none_iff]
    simp only [List.mem_cons, List.not_mem_nil, or_false]
    omega
  split
  · rw [oscReg_eq_none_iff]
    simp only [List.mem_cons, List.not_mem_nil, or_false]
    omega
  split
  · rw [filtReg_eq_none_iff]
    simp only [List.mem_cons, List.not_mem_nil, or_false]
    omega
  split
  · rw [dlyReg_eq_none_iff]
    simp only [List.mem_cons, List.not_mem_nil, or_false]
    omega
  split
  · rw [efxReg_eq_none_iff]
    simp only [List.mem_cons, List.not_mem_nil, or_false]
    omega
  · simp only [List.mem_cons, List.not_mem_nil, or_false, true_iff]
    omega

/-! ### A register stands at one index -/

/-- The unit whose table a class R register is in, none for the global table. -/
def RReg.unit : RReg → Option UnitName
  | .id | .fsHz | .maxDlyN | .maxCombN | .maxFirN | .noscN | .status | .tickCount | .outL | .outR | .oscMix => none
  | .osc c _ => some (.osc c)
  | .cutoffEff | .filtG | .fb0 | .fb1 | .fb2 | .fa1 | .fa2 | .filtOut | .combLen | .ladderY4 | .filtStatus => some .filt
  | .dlyOutL | .dlyOutR | .dlenL | .dlenR | .dwIdx | .lfoL | .lfoR | .phWow | .phFlut | .dnoiseState | .blpL | .blpR =>
    some .dly
  | .efxOutL | .efxOutR | .phLfo | .irDecayGen | .eb0 | .eb1 | .eb2 | .ea1 | .ea2 | .phCoef | .hwIdx => some .efx

/-- The unit whose table a register is in, none for the global table. -/
def Reg.unit : Reg → Option UnitName
  | .p .ctrl => none
  | .p .bpm => none
  | .p (.osc c _) => some (.osc c)
  | .p (.filt _) => some .filt
  | .p (.dly _) => some .dly
  | .p (.efx _) => some .efx
  | .m .amp => none
  | .m (.modIn c) => some (.osc c)
  | .m .envIn => some .filt
  | .m .lfoIn => some .filt
  | .d .inL => none
  | .d .inR => none
  | .d .filtIn => some .filt
  | .d .firAddr => some .efx
  | .d .firData => some .efx
  | .r q => q.unit

/-- The table of a unit, of the global registers for none. -/
def unitTable : Option UnitName → Nat → Option Reg
  | none => globalReg
  | some (.osc c) => oscReg c
  | some .filt => filtReg
  | some .dly => dlyReg
  | some .efx => efxReg

/-- The index where a unit's table begins (10_state.md R31). -/
def unitBase : Option UnitName → BitVec 12
  | none => 0
  | some (.osc c) => oscIndex c 0
  | some .filt => 0x200
  | some .dly => 0x300
  | some .efx => 0x400

theorem regAt_unitTable {a : BitVec 12} {q : Reg} (h : regAt a = some q) :
    ∃ u n, a = unitBase u + BitVec.ofNat 12 n ∧ unitTable u n = some q := by
  obtain ⟨n, rfl, hn⟩ | ⟨c, n, rfl, hn⟩ | ⟨n, rfl, hn⟩ | ⟨n, rfl, hn⟩ | ⟨n, rfl, hn⟩ := regAt_cases h
  · exact ⟨none, n, (BitVec.zero_add _).symm, hn⟩
  · exact ⟨some (.osc c), n, by simp [oscIndex, unitBase], hn⟩
  · exact ⟨some .filt, n, BitVec.ofNat_add _ _, hn⟩
  · exact ⟨some .dly, n, BitVec.ofNat_add _ _, hn⟩
  · exact ⟨some .efx, n, BitVec.ofNat_add _ _, hn⟩

theorem unit_of_globalReg {n : Nat} {q : Reg} (h : globalReg n = some q) : q.unit = none := by
  unfold globalReg at h
  split at h <;> cases h <;> rfl

theorem unit_of_oscReg {c : Chan} {n : Nat} {q : Reg} (h : oscReg c n = some q) : q.unit = some (.osc c) := by
  unfold oscReg at h
  split at h <;> cases h <;> rfl

theorem unit_of_filtReg {n : Nat} {q : Reg} (h : filtReg n = some q) : q.unit = some .filt := by
  unfold filtReg at h
  split at h <;> cases h <;> rfl

theorem unit_of_dlyReg {n : Nat} {q : Reg} (h : dlyReg n = some q) : q.unit = some .dly := by
  unfold dlyReg at h
  split at h <;> cases h <;> rfl

theorem unit_of_efxReg {n : Nat} {q : Reg} (h : efxReg n = some q) : q.unit = some .efx := by
  unfold efxReg at h
  split at h <;> cases h <;> rfl

theorem unit_of_unitTable {u : Option UnitName} {n : Nat} {q : Reg} (h : unitTable u n = some q) : q.unit = u := by
  obtain _ | u := u
  · exact unit_of_globalReg h
  cases u with
  | osc c => exact unit_of_oscReg h
  | filt => exact unit_of_filtReg h
  | dly => exact unit_of_dlyReg h
  | efx => exact unit_of_efxReg h

/-- The offset at which a register stands in its unit's table. -/
def Reg.offset (q : Reg) : Option Nat := (List.range 0x40).find? fun n => unitTable q.unit n == some q

theorem offset_of_globalReg {n : Nat} {q : Reg} (h : globalReg n = some q) : q.offset = some n := by
  unfold globalReg at h
  split at h <;> cases h <;> rfl

theorem offset_of_oscReg {c : Chan} {n : Nat} {q : Reg} (h : oscReg c n = some q) : q.offset = some n := by
  unfold oscReg at h
  match c with
  | 0 | 1 | 2 | 3 => split at h <;> cases h <;> rfl

theorem offset_of_filtReg {n : Nat} {q : Reg} (h : filtReg n = some q) : q.offset = some n := by
  unfold filtReg at h
  split at h <;> cases h <;> rfl

theorem offset_of_dlyReg {n : Nat} {q : Reg} (h : dlyReg n = some q) : q.offset = some n := by
  unfold dlyReg at h
  split at h <;> cases h <;> rfl

theorem offset_of_efxReg {n : Nat} {q : Reg} (h : efxReg n = some q) : q.offset = some n := by
  unfold efxReg at h
  split at h <;> cases h <;> rfl

theorem offset_of_unitTable {u : Option UnitName} {n : Nat} {q : Reg} (h : unitTable u n = some q) : q.offset = some n := by
  obtain _ | u := u
  · exact offset_of_globalReg h
  cases u with
  | osc c => exact offset_of_oscReg h
  | filt => exact offset_of_filtReg h
  | dly => exact offset_of_dlyReg h
  | efx => exact offset_of_efxReg h

/-- Settles O14: the reserved offsets table by table; a register names its unit, and its offset in that unit's table. -/
theorem registerMap : Obligations.RegisterMap := by
  refine ⟨regAt_eq_none_iff, fun a b r ha hb => ?_⟩
  obtain ⟨u, n, rfl, hn⟩ := regAt_unitTable ha
  obtain ⟨v, m, rfl, hm⟩ := regAt_unitTable hb
  obtain rfl : u = v := (unit_of_unitTable hn).symm.trans (unit_of_unitTable hm)
  obtain rfl : n = m := Option.some.inj ((offset_of_unitTable hn).symm.trans (offset_of_unitTable hm))
  rfl

end Sys2Proof.Machine

/-! PROOFS. The host commands: publication, the block reset, what a command does to `STATUS`, and the commands that may be
performed twice (40_host_commands.md R138 to R154, 60_exceptions.md R372). -/

namespace Sys2Proof.Machine

/-! ### What the sound path leaves alone -/

/-- A state with everything that the sound path writes put to one value. -/
def State.outside (s : State) : State :=
  { s with
    tickCount := 0, outL := f0, outR := f0, oscMix := f0, osc := Vector.replicate 4 (oscResetState 0), filt := filtResetState,
    dly := dlyResetState 0, efx := efxResetState [] [] f0 }

/-- Two states that agree outside the sound path's fields differ in those fields only. -/
theorem eq_of_outside_eq {s t : State} (h : t.outside = s.outside) :
    t = { s with
      tickCount := t.tickCount, outL := t.outL, outR := t.outR, oscMix := t.oscMix, osc := t.osc, filt := t.filt,
      dly := t.dly, efx := t.efx } := by
  calc t = { t.outside with
        tickCount := t.tickCount, outL := t.outL, outR := t.outR, oscMix := t.oscMix, osc := t.osc, filt := t.filt,
        dly := t.dly, efx := t.efx } := rfl
    _ = _ := by rw [h]; rfl

theorem oscStep_outside (P : Params) (c : Chan) (s : State) : (oscStep P c s).outside = s.outside := rfl

theorem stepOscillators_outside (P : Params) (s : State) : (stepOscillators P s).outside = s.outside := by
  simp only [stepOscillators, oscStep_outside]

theorem pathFilter_outside (P : Params) (v : F64) (s : State) : (pathFilter P v s).s.outside = s.outside := by
  obtain ⟨-, h⟩ | ⟨-, h⟩ := pathFilter_cases P v s
  · rw [h]; rfl
  · rw [h]

theorem pathDelay_outside (P : Params) (p : Path) : (pathDelay P p).s.outside = p.s.outside := by
  obtain ⟨-, h⟩ | ⟨-, h⟩ := pathDelay_cases P p
  · rw [h]; rfl
  · rw [h]

theorem pathEffect_outside (P : Params) (p : Path) : (pathEffect P p).s.outside = p.s.outside := by
  obtain ⟨-, h⟩ | ⟨-, h⟩ := pathEffect_cases P p
  · rw [h]; rfl
  · rw [h]

theorem pathEffects_outside (P : Params) (p : Path) : (pathEffects P p).s.outside = p.s.outside := by
  unfold pathEffects
  split <;> simp only [pathDelay_outside, pathEffect_outside]

theorem tickState_outside (P : Params) (s : State) : (tickState P s).outside = s.outside :=
  (pathEffects_outside P _).trans ((pathFilter_outside P _ _).trans (stepOscillators_outside P s))

theorem tickState_status (P : Params) (s : State) : (tickState P s).status = s.status := by
  have h := congrArg State.status (tickState_outside P s)
  exact h

/-! ### Publication and the block reset -/

theorem exec_commit (s : State) : exec .commit s = .next (commitState theParams s) := rfl

/-- Settles O6: the two outcomes of `COMMIT` by the comparison of the decays. -/
theorem publication : Obligations.Publication := by
  intro s
  obtain ⟨hsame, hc⟩ | ⟨hdiffer, hc⟩ := commitState_cases theParams s
  · refine ⟨fun _ => by rw [exec_commit, hc]; rfl, fun h => ?_, rfl⟩
    exact absurd (hsame.symm.trans h) (by decide)
  · refine ⟨fun h => absurd (hdiffer.symm.trans h) (by decide), fun _ => ?_, rfl⟩
    exact ⟨_, rfl, by rw [exec_commit, hc]; rfl⟩

/-- Settles O7: the block reset is the reset state with the port put back. -/
theorem softReset : Obligations.SoftReset := fun _ => rfl

/-! ### A channel's step -/

theorem exec_oscStep (c : Chan) (s : State) : exec (.oscStep (selOf c)) s = .next (oscStep theParams c s) := by
  simp only [exec, execOscStep, chanOfSel_selOf]

/-- Settles O24: a disabled channel's step clears its output and its wrap flag. -/
theorem oscStepDisabled : Obligations.OscStepDisabled := by
  intro s c h
  rw [exec_oscStep, oscStep, setOsc, oscStepState_disabled h]

/-! ### The idempotent commands -/

/-- A second `COMMIT` publishes what is published, and whether or not it generates, from the same registers. -/
theorem commitState_commitState (P : Params) (s : State) : commitState P (commitState P s) = commitState P s := by
  obtain ⟨hsame, hc⟩ | ⟨-, hc⟩ := commitState_cases P s <;> rw [hc]
  · obtain ⟨-, hc'⟩ | ⟨hdiffer, -⟩ := commitState_cases P (publishP s)
    · exact hc'
    · exact absurd (hsame.symm.trans hdiffer) (by decide)
  · obtain ⟨-, hc'⟩ | ⟨-, hc'⟩ := commitState_cases P (generateIR P (publishP s)) <;> rw [hc'] <;> rfl

theorem setOsc_setOsc (c : Chan) (o o' : OscState) (s : State) : setOsc c o (setOsc c o' s) = setOsc c o s := by
  simp only [setOsc, Vector.set_set]

theorem resetUnitState_resetUnitState (u : UnitName) (s : State) :
    resetUnitState u (resetUnitState u s) = resetUnitState u s := by
  cases u with
  | osc c => exact setOsc_setOsc c _ _ s
  | filt => rfl
  | dly => rfl
  | efx => rfl

theorem phaseReset_phaseReset (o : OscState) : o.phaseReset.phaseReset = o.phaseReset := rfl

/-- Settles O50: each of the commands assigns what does not depend on what it assigns. -/
theorem idempotent : Obligations.Idempotent := by
  rintro i s (hi | ⟨sel, rfl, hwf⟩ | ⟨sel, rfl, hwf⟩)
  · simp only [List.mem_cons, List.not_mem_nil, or_false] at hi
    obtain rfl | rfl | rfl | rfl := hi
    · exact ⟨_, exec_commit s, (exec_commit _).trans (congrArg _ (commitState_commitState theParams s))⟩
    · exact ⟨_, rfl, rfl⟩
    · exact ⟨_, rfl, rfl⟩
    · exact ⟨_, rfl, rfl⟩
  · obtain ⟨u, hu⟩ := Option.isSome_iff_exists.1 (unitOfSel_isSome hwf)
    exact ⟨_, exec_resetUnit hu s, (exec_resetUnit hu _).trans (congrArg _ (resetUnitState_resetUnitState u s))⟩
  · obtain ⟨c, rfl⟩ := chanOfSel_eq_some (sel := sel) hwf
    have hexec (s : State) : exec (.oscPhaseReset (selOf c)) s = .next (setOsc c s.osc[c].phaseReset s) := by
      simp only [exec, execOscPhaseReset, chanOfSel_selOf]
    refine ⟨_, hexec s, (hexec _).trans (congrArg _ ?_)⟩
    rw [setOsc_get_same, phaseReset_phaseReset, setOsc_setOsc]

/-! ### `STATUS` -/

theorem commitState_status (P : Params) (s : State) : (commitState P s).status = s.status := by
  obtain ⟨-, h⟩ | ⟨-, h⟩ := commitState_cases P s <;> rw [h] <;> rfl

theorem resetUnitState_status (u : UnitName) (s : State) : (resetUnitState u s).status = s.status := by
  cases u <;> rfl

theorem vowelOfSel_isSome {sel : BitVec 4} (h : (Instr.vowelLoad sel).wellFormed = true) :
    (vowelOfSel sel).isSome = true := by
  revert h
  decide +revert

/-- A command term that is neither a register command nor one of the two that clear it keeps `STATUS`. -/
theorem exec_status {i : Instr} {s t : State} (hwf : i.wellFormed = true) (h : exec i s = .next t) (hclr : i ≠ .clrErr)
    (hreset : i ≠ .softReset) (hwrite : ∀ a v, i ≠ .csrWrite a v) (hread : ∀ a, i ≠ .csrRead a) : t.status = s.status := by
  cases i
  case clrErr => exact absurd rfl hclr
  case softReset => exact absurd rfl hreset
  case csrWrite a v => exact absurd rfl (hwrite a v)
  case csrRead a => exact absurd rfl (hread a)
  case resetUnit sel =>
    obtain ⟨u, hu⟩ := Option.isSome_iff_exists.1 (unitOfSel_isSome hwf)
    obtain rfl := Host.Outcome.next.inj ((exec_resetUnit hu s).symm.trans h)
    exact resetUnitState_status u s
  case oscStep sel =>
    obtain ⟨c, rfl⟩ := chanOfSel_eq_some hwf
    obtain rfl := Host.Outcome.next.inj ((exec_oscStep c s).symm.trans h)
    rfl
  case oscPhaseReset sel =>
    obtain ⟨c, rfl⟩ := chanOfSel_eq_some (sel := sel) hwf
    obtain rfl := Host.Outcome.next.inj ((exec_oscPhaseReset c s).symm.trans h)
    rfl
  case vowelLoad sel =>
    obtain ⟨v, hv⟩ : ∃ v, vowelOfSel sel = some v := Option.isSome_iff_exists.1 (vowelOfSel_isSome hwf)
    simp only [exec, execVowelLoad, hv] at h
    obtain rfl := Host.Outcome.next.inj h
    rfl
  all_goals obtain rfl := Host.Outcome.next.inj h
  case tick => exact tickState_status theParams s
  case commit => exact commitState_status theParams s
  all_goals rfl

/-- An error of a register command: recorded where none was, and the only effect. -/
theorem recordErr_mem (e : Err) (status : Word) :
    recordErr e status = status ∨ (statusErr status = false ∧ recordErr e status = statusOf e) := by
  obtain ⟨-, h⟩ | h := recordErr_cases e status
  · exact .inl h
  · exact .inr h

/-- A `CSR_WRITE` keeps `STATUS`, or records one of four errors and does nothing else. -/
theorem csrWrite_status (P : Params) (a : BitVec 12) (v : Word) (s : State) :
    (csrWrite P a v s).status = s.status ∨
      ∃ e, statusOf e ∈ [0x201#64, 0x301#64, 0x401#64, 0x501#64] ∧ csrWrite P a v s = raiseErr e s := by
  unfold csrWrite
  split
  case h_2 => exact .inr ⟨.badCsr, by decide, rfl⟩
  case h_1 r _ =>
    unfold writeReg
    split
    · exact .inr ⟨.roWrite, by decide, rfl⟩
    · split
      · exact .inl rfl
      · exact .inr ⟨.badValue, by decide, rfl⟩
    · split
      · exact .inl rfl
      · exact .inr ⟨.badValue, by decide, rfl⟩
    · unfold writeD
      split
      case h_5 =>
        split
        · exact .inl (windowWrite_status v s)
        · exact .inr ⟨.firRange, by decide, rfl⟩
      all_goals exact .inl rfl

/-- A `CSR_READ` keeps `STATUS`, or fails with one of two errors. -/
theorem csrRead_status (P : Params) (a : BitVec 12) (s : State) :
    (csrRead P a s).status = s.status ∨ ∃ e, statusOf e ∈ [0x201#64, 0x501#64] ∧ csrRead P a s = failRead e s := by
  unfold csrRead
  split
  · exact .inr ⟨.badCsr, by decide, rfl⟩
  · split
    · exact .inl rfl
    · exact .inr ⟨.firRange, by decide, rfl⟩
  · exact .inl rfl

/-- Settles O12: the commands that are not register commands keep `STATUS` or clear it, and a register command that raises
an error does nothing but record it, and answer the zero beat of a read. -/
theorem statusChangesOnly : Obligations.StatusChangesOnly := by
  intro i s t hwf h
  by_cases hclr : i = .clrErr
  · subst hclr
    obtain rfl := Host.Outcome.next.inj h
    exact .inr (.inl ⟨.inl rfl, rfl⟩)
  by_cases hreset : i = .softReset
  · subst hreset
    obtain rfl := Host.Outcome.next.inj h
    exact .inr (.inl ⟨.inr rfl, rfl⟩)
  by_cases hwrite : ∃ a v, i = .csrWrite a v
  · obtain ⟨a, v, rfl⟩ := hwrite
    obtain rfl := Host.Outcome.next.inj h
    obtain hkeep | ⟨e, he, hraise⟩ := csrWrite_status theParams a v s
    · exact .inl hkeep
    · rw [hraise]
      obtain hsame | ⟨hnone, hrec⟩ := recordErr_mem e s.status
      · exact .inl hsame
      · refine .inr (.inr ⟨hnone, .inl ⟨a, v, rfl, ?_, rfl⟩⟩)
        rwa [raiseErr_status, hrec]
  by_cases hread : ∃ a, i = .csrRead a
  · obtain ⟨a, rfl⟩ := hread
    obtain rfl := Host.Outcome.next.inj h
    obtain hkeep | ⟨e, he, hfail⟩ := csrRead_status theParams a s
    · exact .inl hkeep
    · rw [hfail]
      obtain hsame | ⟨hnone, hrec⟩ := recordErr_mem e s.status
      · exact .inl hsame
      · refine .inr (.inr ⟨hnone, .inr ⟨a, rfl, ?_, rfl⟩⟩)
        rwa [failRead_eq, hrec]
  exact .inl (exec_status hwf h hclr hreset (fun a v hi => hwrite ⟨a, v, hi⟩) fun a hi => hread ⟨a, hi⟩)

end Sys2Proof.Machine

/-! PROOFS. What reads answer: every register of the map, the state after reset, and the error examples
(40_host_commands.md R133, 70_reset_and_hazards.md R401, 60_exceptions.md R373, R387). -/

namespace Sys2Proof.Machine

/-! ### Field registers as the sums of their fields -/

theorem bitAt_eq (b : Bool) (i : Nat) : bitAt b i = b.toNat * 2 ^ i := by
  cases b <;> simp [bitAt]

theorem Wave.code_eq (w : Wave) :
    w.code = [Wave.sine, .triangle, .saw, .square, .pulse, .noise, .phaseDist, .fm].idxOf w := by cases w <;> rfl

theorem BandLimit.code_eq (b : BandLimit) : b.code = [BandLimit.naive, .polyBlep, .additive].idxOf b := by cases b <;> rfl

theorem Topology.code_eq (t : Topology) :
    t.code = [Topology.multi, .ladder, .sallenKey, .svf, .comb, .formant].idxOf t := by cases t <;> rfl

theorem Response.code_eq (r : Response) : r.code = [Response.lp, .hp, .bp, .notch].idxOf r := by cases r <;> rfl

theorem DelayMode.code_eq (m : DelayMode) :
    m.code = [DelayMode.delay, .chorus, .bbdDelay, .bbdChorus, .tape].idxOf m := by cases m <;> rfl

theorem Division.code_eq (d : Division) :
    d.code = [Division.whole, .half, .quarter, .eighth, .sixteenth, .thirtySecond, .dottedQuarter, .dottedEighth,
      .tripletQuarter, .tripletEighth].idxOf d := by cases d <;> rfl

theorem EffectMode.code_eq (m : EffectMode) : m.code = [EffectMode.biquad, .phaser, .fir].idxOf m := by cases m <;> rfl

/-- The fields of a register, each at its lowest bit. -/
def fieldSum (l : List (Nat × Nat)) : Word := BitVec.ofNat 64 (l.map fun e => e.2 * 2 ^ e.1).sum

theorem Ctrl.toWord_eq (c : Ctrl) :
    c.toWord = fieldSum [(0, c.filtEn.toNat), (1, c.dlyEn.toNat), (2, c.efxEn.toNat), (3, c.chainOrder.toNat),
      (4, c.analogEn.toNat)] := by
  simp only [toWord, fieldSum, bitAt_eq, List.map_cons, List.map_nil, List.sum_cons, List.sum_nil, add_zero, add_assoc]

theorem OscCtrl.toWord_eq (c : OscCtrl) :
    c.toWord = fieldSum [(0, c.en.toNat), (1, c.wave.code), (5, c.bl.code), (7, c.ovs.val), (9, c.sync.toNat),
      (10, c.ring.toNat), (11, c.fmAlg.val)] := by
  simp only [toWord, fieldSum, bitAt_eq, List.map_cons, List.map_nil, List.sum_cons, List.sum_nil, add_zero, add_assoc]

theorem FiltCtrl.toWord_eq (c : FiltCtrl) :
    c.toWord = fieldSum [(0, c.topo.code), (3, c.resp.code), (5, c.onePole.toNat), (6, c.fovs.val)] := by
  simp only [toWord, fieldSum, bitAt_eq, List.map_cons, List.map_nil, List.sum_cons, List.sum_nil, add_zero, add_assoc,
    pow_zero, mul_one]

theorem DlyCtrl.toWord_eq (c : DlyCtrl) :
    c.toWord = fieldSum [(0, c.mode.code), (3, c.pingPong.toNat), (4, c.sync.toNat), (5, c.div.code)] := by
  simp only [toWord, fieldSum, bitAt_eq, List.map_cons, List.map_nil, List.sum_cons, List.sum_nil, add_zero, add_assoc,
    pow_zero, mul_one]

theorem EfxCtrl.toWord_eq (c : EfxCtrl) : c.toWord = fieldSum [(0, c.mode.code), (2, c.resp.code)] := by
  simp only [toWord, fieldSum, List.map_cons, List.map_nil, List.sum_cons, List.sum_nil, add_zero, pow_zero, mul_one]

/-! ### What a read answers -/

/-- A `CSR_READ` of `a` answers `v` and changes nothing but the response. -/
def Answers (s : State) (a : BitVec 12) (v : Word) : Prop :=
  exec (.csrRead a) s = .next { s with port := { s.port with responses := s.port.responses ++ [v] } }

theorem answers_of_regAt {s : State} {a : BitVec 12} {r : Reg} {v : Word} (h : regAt a = some r) (hw : r ≠ .d .firData)
    (hv : readReg theParams s r = v) : Answers s a v := by
  subst hv
  exact exec_csrRead_of_regAt h hw s

theorem answers_oscIndex {s : State} {c : Chan} {o : BitVec 12} {r : Reg} {v : Word} (ho : o.toNat < 0x40)
    (h : oscReg c o.toNat = some r) (hw : r ≠ .d .firData) (hv : readReg theParams s r = v) : Answers s (oscIndex c o) v :=
  answers_of_regAt ((regAt_oscIndex c ho).trans h) hw hv

theorem regAt_filt {a : BitVec 12} {r : Reg} (hlo : 0x200 ≤ a.toNat) (hhi : a.toNat < 0x300)
    (h : filtReg (a.toNat % 0x100) = some r) : regAt a = some r := by
  rw [← h, regAt, if_neg (by omega), if_neg (by omega), if_pos (by omega), show a.toNat - 0x200 = a.toNat % 0x100 by omega]

theorem regAt_dly {a : BitVec 12} {r : Reg} (hlo : 0x300 ≤ a.toNat) (hhi : a.toNat < 0x400)
    (h : dlyReg (a.toNat % 0x100) = some r) : regAt a = some r := by
  rw [← h, regAt, if_neg (by omega), if_neg (by omega), if_neg (by omega), if_pos (by omega), show a.toNat - 0x300 = a.toNat % 0x100 by omega]

theorem regAt_efx {a : BitVec 12} {r : Reg} (hlo : 0x400 ≤ a.toNat) (hhi : a.toNat < 0x500)
    (h : efxReg (a.toNat % 0x100) = some r) : regAt a = some r := by
  rw [← h, regAt, if_neg (by omega), if_neg (by omega), if_neg (by omega), if_neg (by omega), if_pos (by omega), show a.toNat - 0x400 = a.toNat % 0x100 by omega]

/-- A register that reads a number which may need more than 64 bits (log 14). -/
theorem answers_count {s : State} {a : BitVec 12} {r : Reg} {n : Nat} (h : regAt a = some r) (hw : r ≠ .d .firData)
    (hv : readReg theParams s r = u64Of n) : ∃ v, Answers s a v ∧ (n < 2 ^ 64 → v.toNat = n) :=
  ⟨u64Of n, answers_of_regAt h hw hv, u64Of_toNat⟩

theorem exec_csrRead_reserved {a : BitVec 12} (h : regAt a = none) (s : State) :
    exec (.csrRead a) s = .next (failRead .badCsr s) := by
  simp only [exec, execCsrRead, csrRead, h]

/-- Settles O20: the register of each index, and what it reads. -/
theorem readRegister : Obligations.ReadRegister := by
  intro s answer count fields g
  refine ⟨fun a h => exec_csrRead_reserved h s, ?global, fun c => ?osc, ?filt, ?dly, ?efx,
    fun a r h => answers_of_regAt h nofun rfl, fun a r h => answers_of_regAt h nofun rfl⟩
  case global =>
    refine ⟨answers_of_regAt rfl nofun rfl, answers_of_regAt rfl nofun rfl, answers_count rfl nofun rfl,
      answers_count rfl nofun rfl, answers_count rfl nofun rfl, answers_of_regAt rfl nofun rfl,
      answers_of_regAt rfl nofun g.ctrl.toWord_eq, ?_⟩
    and_intros <;> exact answers_of_regAt rfl nofun rfl
  case osc =>
    refine ⟨answers_oscIndex (by decide) rfl nofun ?ctrl, ?_, ?_, ?_, ?_, ?_, ?_, ?_, ?_, ?_, ?_, ?_, fun j => ?operator, ?_, ?_,
      ?_, ?_, ?_, ?_, ?_, ?_⟩
    case ctrl =>
      rw [← Wave.code_eq, ← BandLimit.code_eq]
      exact OscCtrl.toWord_eq _
    case operator =>
      match j with
      | 0 | 1 | 2 | 3 =>
        exact ⟨answers_oscIndex (by decide) rfl nofun rfl, answers_oscIndex (by decide) rfl nofun rfl,
          answers_oscIndex (by decide) rfl nofun rfl⟩
    all_goals exact answers_oscIndex (by decide) rfl nofun rfl
  case filt =>
    refine ⟨answers_of_regAt (regAt_filt (by decide) (by decide) rfl) nofun ?ctrl, ?_, ?_, ?_, ?_, ?_, ?_, ?_, ?_, ?_, ?_, ?_, ?_, fun k => ?formant, ?_, ?_, ?_⟩
    case ctrl =>
      rw [← Topology.code_eq, ← Response.code_eq]
      exact FiltCtrl.toWord_eq _
    case formant =>
      match k with
      | 0 | 1 | 2 =>
        exact ⟨answers_of_regAt (regAt_filt (by decide) (by decide) rfl) nofun rfl, answers_of_regAt (regAt_filt (by decide) (by decide) rfl) nofun rfl, answers_of_regAt (regAt_filt (by decide) (by decide) rfl) nofun rfl⟩
    all_goals exact answers_of_regAt (regAt_filt (by decide) (by decide) rfl) nofun rfl
  case dly =>
    refine ⟨answers_of_regAt (regAt_dly (by decide) (by decide) rfl) nofun ?ctrl, ?_, ?_, ?_, ?_, ?_, ?_, ?_, ?_, ?_, ?_, ?_, ?_, ?_, ?_, ?_, ?_, ?_, ?_, ?_, ?_, ?_,
      answers_count (regAt_dly (by decide) (by decide) rfl) nofun rfl, ?_⟩
    case ctrl =>
      rw [← DelayMode.code_eq, ← Division.code_eq]
      exact DlyCtrl.toWord_eq _
    all_goals and_intros
    all_goals exact answers_of_regAt (regAt_dly (by decide) (by decide) rfl) nofun rfl
  case efx =>
    refine ⟨answers_of_regAt (regAt_efx (by decide) (by decide) rfl) nofun ?ctrl, ?_, ?_, ?_, ?_, ?_, ?_, ?_, ?_, ?_, ?_, ?_, ?_, ?_, ?_, ?_, ?_, ?_, ?_, ?_, ?_,
      answers_count (regAt_efx (by decide) (by decide) rfl) nofun rfl⟩
    case ctrl =>
      rw [← EffectMode.code_eq, ← Response.code_eq]
      exact EfxCtrl.toWord_eq _
    all_goals exact answers_of_regAt (regAt_efx (by decide) (by decide) rfl) nofun rfl

/-! ### After reset -/

/-- The register at an index is not the window, and reads `v` in `s`. -/
def ReadsAs (s : State) (a : BitVec 12) (v : Word) : Prop :=
  ((regAt a).filter (· != .d .firData)).map (readReg theParams s) = some v

theorem answers_of_readsAs {s : State} {a : BitVec 12} {v : Word} (h : ReadsAs s a v) : Answers s a v := by
  obtain ⟨r, hr, hv⟩ := Option.map_eq_some_iff.1 h
  obtain ⟨hr, hw⟩ := Option.filter_eq_some_iff.1 hr
  exact answers_of_regAt hr (bne_iff_ne.1 hw) hv

theorem resetWords_readsAs : ∀ e ∈ resetWords, ReadsAs State.reset e.1 e.2 := by
  simp only [resetWords, List.forall_mem_append, List.forall_mem_cons, List.not_mem_nil, false_imp_iff, implies_true, and_true]
  and_intros <;> rfl

theorem resetOscWords_readsAs (c : Chan) : ∀ e ∈ resetOscWords,
    ReadsAs State.reset (0x100#12 + BitVec.ofNat 12 (0x40 * c.val) + e.1) e.2 := by
  simp only [resetOscWords, List.forall_mem_cons, List.not_mem_nil, false_imp_iff, implies_true, and_true]
  match c with
  | 0 | 1 | 2 | 3 => and_intros <;> rfl

theorem resetNoise_readsAs (c : Chan) : ∀ o ∈ [0x16#12, 0x1B#12],
    ReadsAs State.reset (0x100#12 + BitVec.ofNat 12 (0x40 * c.val) + o) (0x9E3779B9#64 + BitVec.ofNat 64 c.val) := by
  simp only [List.forall_mem_cons, List.not_mem_nil, false_imp_iff, implies_true, and_true]
  match c with
  | 0 | 1 | 2 | 3 => and_intros <;> rfl

/-- Settles O8: the register at each listed index, and what it reads in the reset state. -/
theorem resetRegisters : Obligations.ResetRegisters :=
  ⟨fun e he => answers_of_readsAs (resetWords_readsAs e he),
    fun c e he => answers_of_readsAs (resetOscWords_readsAs c e he),
    fun c o ho => answers_of_readsAs (resetNoise_readsAs c o ho)⟩

theorem natCast_irLength (P : Params) (decay : F64) (h : 1 ≤ P.maxFir) :
    (irLength P decay : Int) = iclamp (toInt (fmul decay P.fs)) 1 P.maxFir := by
  have := iclamp_mem (n := toInt (fmul decay P.fs)) (lo := 1) (hi := P.maxFir) (by omega)
  exact Int.toNat_of_nonneg (by omega)

theorem generateIR_reset : generateIR theParams State.reset = State.reset := rfl

/-- Settles O9: the fields of the reset state as they are defined, and the generation from its registers, which gives back
the lengths and coefficients that it holds. -/
theorem resetOpenParameters : Obligations.ResetOpenParameters := by
  unfold Obligations.ResetOpenParameters
  intro r len
  have hlen : resetFirLen theParams = len := by
    rw [resetFirLen, firLenWord_eq, natCast_irLength _ _ one_le_maxFir]
  refine ⟨rfl, rfl, hlen, hlen, fun k => getElem_three (theParams.vowel .a) k, rfl, rfl, rfl, fun i => ?_, rfl, rfl,
    fun k => ?_, rfl, rfl, rfl, fun st => ⟨?_, ?_⟩, rfl, fun i => ⟨rfl, rfl, rfl, rfl, rfl⟩, congrArg _ generateIR_reset⟩
  all_goals exact Vector.getElem_replicate _

/-! ### Error examples -/

/-- Settles O13: the outcome of each transaction, by evaluation. -/
theorem errorExamples : Obligations.ErrorExamples := by
  refine ⟨?_, ?_, ?_, ?_, ?_, ?_, ?_, ?_, ?_, ?_⟩
  all_goals rfl

end Sys2Proof.Machine

/-! PROOFS. The oscillator channels: the sub-steps as iterations of one, what a channel's step reads, hard sync, ring
modulation, and the noise channel (41_oscillators.md R170 to R203). -/

namespace Sys2Proof.Machine

/-! ### The channel before a channel -/

theorem prevOsc_zero (s : State) : prevOsc 0 s = none := rfl

theorem prevOsc_succ {c d : Chan} (h : d.val + 1 = c.val) (s : State) : prevOsc c s = some s.osc[d] := by
  have hc : c.val ≠ 0 := by omega
  have hd : c.val - 1 = d.val := by omega
  simp only [prevOsc, if_neg hc, hd, Fin.getElem_fin]

theorem chan_zero_or_succ (c : Chan) : c = 0 ∨ ∃ d : Chan, d.val + 1 = c.val := by
  decide +revert

/-- A channel's step writes no channel before it. -/
theorem prevOsc_setOsc (c : Chan) (o : OscState) (s : State) : prevOsc c (setOsc c o s) = prevOsc c s := by
  obtain rfl | ⟨d, hd⟩ := chan_zero_or_succ c
  · rfl
  · have hne : c ≠ d := fun h => by subst h; omega
    rw [prevOsc_succ hd, prevOsc_succ hd, setOsc_get_other hne]

theorem syncPhase_congr (p : OscP) {prev prev' : Option OscState} (h : prev.map OscState.wrap = prev'.map OscState.wrap)
    (o : OscState) : syncPhase p prev o = syncPhase p prev' o := by
  cases prev <;> cases prev' <;> simp_all [syncPhase]

theorem ringOut_congr (p : OscP) {prev prev' : Option OscState} (h : prev.map OscState.out = prev'.map OscState.out)
    (y : F64) : ringOut p prev y = ringOut p prev' y := by
  cases prev <;> cases prev' <;> simp_all [ringOut]

/-- Of the channel before it a step reads the wrap flag and the output only (41_oscillators.md R201, R202). -/
theorem oscStepState_prev_congr (P : Params) (p : OscP) (modIn : F64) {prev prev' : Option OscState}
    (hwrap : prev.map OscState.wrap = prev'.map OscState.wrap) (hout : prev.map OscState.out = prev'.map OscState.out)
    (o : OscState) : oscStepState P p modIn prev o = oscStepState P p modIn prev' o := by
  simp only [oscStepState, syncPhase_congr p hwrap, ringOut_congr p hout]

/-- Settles O27: the step is a function of the registers, the channel and the two values of the channel before it. -/
theorem oscStepDependsOn : Obligations.OscStepDependsOn := by
  intro s u c hp hm ho hprev
  have hmap {α : Type} (f : OscState → α) (hf : ∀ d : Chan, d.val + 1 = c.val → f s.osc[d] = f u.osc[d]) :
      (prevOsc c s).map f = (prevOsc c u).map f := by
    obtain rfl | ⟨d, hd⟩ := chan_zero_or_succ c
    · rfl
    · rw [prevOsc_succ hd, prevOsc_succ hd, Option.map_some, Option.map_some, hf d hd]
  refine ⟨_, exec_oscStep c s, ?_⟩
  rw [exec_oscStep, oscStep, setOsc, hp, hm, ho]
  rw [oscStepState_prev_congr theParams _ _ (hmap _ fun d hd => (hprev d hd).1) (hmap _ fun d hd => (hprev d hd).2)]

/-! ### Sub-steps -/

theorem subSteps_eq_iterate (P : Params) (p : OscP) (dts : F64) (n : Nat) (r : SubSteps) :
    subSteps P p dts n r = (subStep P p dts)^[n] r := by
  induction n generalizing r with
  | zero => rfl
  | succ n ih => exact ih _

theorem subStep_acc (P : Params) (p : OscP) (dts : F64) (r : SubSteps) :
    (subStep P p dts r).acc = fadd r.acc (evalWave P p (frac (fadd r.st.phase p.phaseOfs)) dts r.st).1 := rfl

/-- The state and the wrap flag after a sub-step (41_oscillators.md R172, R175). -/
theorem subStep_cases (P : Params) (p : OscP) (dts : F64) (r : SubSteps) :
    let o := (evalWave P p (frac (fadd r.st.phase p.phaseOfs)) dts r.st).2
    let sum := fadd r.st.phase dts
    (fle f1 sum = true ∧ (subStep P p dts r).st = { o with phase := fsub sum f1 } ∧ (subStep P p dts r).wrapped = true) ∨
      (fle f1 sum = false ∧ (subStep P p dts r).st = { o with phase := sum } ∧ (subStep P p dts r).wrapped = r.wrapped) := by
  intro o sum
  have hphase : o.phase = r.st.phase := evalWave_phase P p _ dts r.st
  have hst : (subStep P p dts r).st = (advancePhase dts o).1 := rfl
  have hwrap : (subStep P p dts r).wrapped = (r.wrapped || (advancePhase dts o).2) := rfl
  rw [hst, hwrap]
  obtain ⟨h, ha⟩ | ⟨h, ha⟩ := advancePhase_cases dts o <;> rw [ha] <;> rw [hphase] at h ⊢
  · exact .inl ⟨h, rfl, Bool.or_true _⟩
  · exact .inr ⟨h, rfl, Bool.or_false _⟩

/-- A sub-step from what the generator gives. -/
theorem subStep_of_evalWave {P : Params} {p : OscP} {dts y : F64} {r : SubSteps} {o : OscState}
    (h : evalWave P p (frac (fadd r.st.phase p.phaseOfs)) dts r.st = (y, o)) :
    subStep P p dts r =
      ⟨{ o with phase := if fle f1 (fadd r.st.phase dts) = true then fsub (fadd r.st.phase dts) f1 else fadd r.st.phase dts },
        fadd r.acc y, r.wrapped || fle f1 (fadd r.st.phase dts)⟩ := by
  have hphase : o.phase = r.st.phase := by rw [← evalWave_phase P p _ dts r.st, h]
  unfold subStep
  simp only [h]
  obtain ⟨hwrap, ha⟩ | ⟨hno, ha⟩ := advancePhase_cases dts o <;> rw [ha] <;> rw [hphase] at *
  · simp only [hwrap, if_true]
  · simp only [hno, if_false, Bool.false_eq_true]

/-- `SYNC` and `RING` are read once, before and after the sub-steps. -/
theorem subSteps_withSync (P : Params) (p : OscP) (b : Bool) (dts : F64) (n : Nat) (r : SubSteps) :
    subSteps P { p with ctrl := { p.ctrl with sync := b } } dts n r = subSteps P p dts n r := by
  simp only [subSteps_eq_iterate]
  rfl

theorem subSteps_withRing (P : Params) (p : OscP) (b : Bool) (dts : F64) (n : Nat) (r : SubSteps) :
    subSteps P { p with ctrl := { p.ctrl with ring := b } } dts n r = subSteps P p dts n r := by
  simp only [subSteps_eq_iterate]
  rfl

/-- A channel without oversampling, hard sync and ring modulation makes one sub-step at `DT`. -/
theorem oscStepState_single {P : Params} {p : OscP} (hen : p.ctrl.en = true) (hovs : p.ctrl.ovs = 0)
    (hsync : p.ctrl.sync = false) (hring : p.ctrl.ring = false) (modIn : F64) (prev : Option OscState) (o : OscState) :
    oscStepState P p modIn prev o =
      let r := subStep P p (fdiv (dtOf P p modIn) f1) ⟨o, f0, false⟩
      { r.st with out := fdiv r.acc f1, wrap := r.wrapped } := by
  have hs : syncPhase p prev o = o := by cases prev <;> simp [syncPhase, hsync]
  have hr (y : F64) : ringOut p prev y = y := by cases prev <;> simp [ringOut, hring]
  have hone : ofInt (((2 : Nat) ^ (0 : Fin 4).val : Nat) : Int) = f1 := by decide
  rw [oscStepState_enabled hen]
  simp only [hovs, hs, hr, hone]
  rfl

/-! ### Hard sync and ring modulation -/

theorem withOscCtrl_osc (s : State) (c : Chan) (f : OscCtrl → OscCtrl) :
    (s.withOscCtrl c f).activeP.osc[c] = { s.activeP.osc[c] with ctrl := f s.activeP.osc[c].ctrl } := by
  simp only [State.withOscCtrl, Fin.getElem_fin, Vector.getElem_set_self]

theorem prevOsc_withOscCtrl (s : State) (c d : Chan) (f : OscCtrl → OscCtrl) :
    prevOsc d (s.withOscCtrl c f) = prevOsc d s := rfl

/-- The step of a channel with other control fields. -/
theorem oscStep_withOscCtrl (P : Params) (s : State) (c : Chan) (f : OscCtrl → OscCtrl) :
    oscStep P c (s.withOscCtrl c f) =
      { s.withOscCtrl c f with
        osc := s.osc.set c (oscStepState P { s.activeP.osc[c] with ctrl := f s.activeP.osc[c].ctrl } s.activeM.modIn[c]
          (prevOsc c s) s.osc[c]) } := by
  rw [← withOscCtrl_osc]
  rfl

theorem syncPhase_no_wrap (p : OscP) {prev : Option OscState} (h : ∀ q ∈ prev, q.wrap = false) (o : OscState) :
    syncPhase p prev o = o := by
  cases prev with
  | none => rfl
  | some q => simp [syncPhase, h q rfl]

/-- Without a wrap of the channel before it a channel steps the same with `SYNC` set and not set. -/
theorem oscStepState_withSync (P : Params) (p : OscP) (b : Bool) (modIn : F64) {prev : Option OscState}
    (h : ∀ q ∈ prev, q.wrap = false) (o : OscState) :
    oscStepState P { p with ctrl := { p.ctrl with sync := b } } modIn prev o = oscStepState P p modIn prev o := by
  unfold oscStepState
  simp only [syncPhase_no_wrap _ h, subSteps_withSync]
  rfl

/-- An enabled channel's step before ring modulation. -/
def plainStep (P : Params) (p : OscP) (modIn : F64) (prev : Option OscState) (o : OscState) : OscState :=
  let m : Nat := 2 ^ p.ctrl.ovs.val
  let r := subSteps P p (fdiv (dtOf P p modIn) (ofInt m)) m ⟨syncPhase p prev o, f0, false⟩
  { r.st with out := fdiv r.acc (ofInt m), wrap := r.wrapped }

theorem oscStepState_eq_plainStep {P : Params} {p : OscP} (hen : p.ctrl.en = true) (modIn : F64) (prev : Option OscState)
    (o : OscState) :
    oscStepState P p modIn prev o =
      { plainStep P p modIn prev o with out := ringOut p prev (plainStep P p modIn prev o).out } :=
  oscStepState_enabled hen modIn prev o

theorem plainStep_withRing (P : Params) (p : OscP) (b : Bool) (modIn : F64) (prev : Option OscState) (o : OscState) :
    plainStep P { p with ctrl := { p.ctrl with ring := b } } modIn prev o = plainStep P p modIn prev o := by
  unfold plainStep
  simp only [subSteps_withRing]
  rfl

theorem ringOut_off {p : OscP} (h : p.ctrl.ring = false) (prev : Option OscState) (y : F64) : ringOut p prev y = y := by
  cases prev <;> simp [ringOut, h]

theorem ringOut_on {p : OscP} (h : p.ctrl.ring = true) (q : OscState) (y : F64) :
    ringOut p (some q) y = fmul y q.out := by
  simp only [ringOut, h, if_true]

/-- Without `RING` an enabled channel's step is the plain one. -/
theorem oscStepState_ring_off {P : Params} {p : OscP} (hen : p.ctrl.en = true) (modIn : F64) (prev : Option OscState)
    (o : OscState) :
    oscStepState P { p with ctrl := { p.ctrl with ring := false } } modIn prev o = plainStep P p modIn prev o := by
  rw [oscStepState_eq_plainStep (p := { p with ctrl := { p.ctrl with ring := false } }) hen, plainStep_withRing,
    ringOut_off rfl]

theorem syncPhase_wrap {p : OscP} (hsync : p.ctrl.sync = true) {q : OscState} (hq : q.wrap = true) (o : OscState) :
    syncPhase p (some q) o = o.phaseReset := by
  simp only [syncPhase, hsync, hq, Bool.and_self, if_true]

/-- Settles O28: the phases are restarted before the sub-steps and the product is taken after them, by what the channel
before left. -/
theorem syncAndRing : Obligations.SyncAndRing := by
  intro s c
  refine ⟨fun d hd hen hsync hwrap => ?sync, fun hwrap => ?noSync, fun hen hring => ?ring⟩
  case sync =>
    let u := setOsc c s.osc[c].phaseReset s
    have hu : u.osc[c] = s.osc[c].phaseReset := setOsc_get_same c _ s
    have hprev : prevOsc c u = prevOsc c s := prevOsc_setOsc c _ s
    change _ = exec (.oscStep (selOf c)) u
    rw [exec_oscStep, exec_oscStep, oscStep, oscStep, hu, hprev]
    have hstep : oscStepState theParams s.activeP.osc[c] s.activeM.modIn[c] (prevOsc c s) s.osc[c].phaseReset =
        oscStepState theParams s.activeP.osc[c] s.activeM.modIn[c] (prevOsc c s) s.osc[c] := by
      simp only [oscStepState_enabled hen, prevOsc_succ hd, syncPhase_wrap hsync hwrap, phaseReset_phaseReset]
    exact congrArg _ (((setOsc_setOsc c _ _ s).trans (congrArg (setOsc c · s) hstep)).symm)
  case noSync =>
    refine ⟨_, exec_oscStep c s, ?_⟩
    have hnone : ∀ q ∈ prevOsc c s, q.wrap = false := by
      obtain rfl | ⟨d, hd⟩ := chan_zero_or_succ c
      · exact fun q hq => by cases hq
      · rw [prevOsc_succ hd]
        rintro q ⟨⟩
        exact hwrap d hd
    rw [exec_oscStep, oscStep_withOscCtrl, oscStepState_withSync _ _ _ _ hnone]
  case ring =>
    refine ⟨_, _, exec_oscStep c s, exec_oscStep c _, fun hc => ?_, fun d hd => ?_⟩ <;>
      rw [oscStep_withOscCtrl, oscStepState_ring_off hen, oscStep_osc, oscStepState_eq_plainStep hen]
    · subst hc
      rfl
    · rw [prevOsc_succ hd, ringOut_on hring]
      simp only [Fin.getElem_fin, Vector.getElem_set_self, Vector.set_set]

/-! ### The generators -/

/-- The channel before, as the statement writes it. -/
theorem prevOsc_eq_getElem? (c : Chan) (s : State) : prevOsc c s = if c = 0 then none else s.osc[c.val - 1]? := by
  obtain rfl | ⟨d, hd⟩ := chan_zero_or_succ c
  · rfl
  · have hc : c ≠ 0 := fun h => by subst h; exact Nat.succ_ne_zero _ hd
    have hval : c.val - 1 = d.val := by omega
    rw [prevOsc_succ hd, if_neg hc, hval, Vector.getElem?_eq_getElem d.isLt]
    rfl

theorem syncPhase_of_wrap {p : OscP} {prev : Option OscState} (h : p.ctrl.sync = true ∧ ∃ b ∈ prev, b.wrap = true)
    (o : OscState) : syncPhase p prev o = o.phaseReset := by
  obtain ⟨hsync, b, rfl, hb⟩ := h
  exact syncPhase_wrap hsync hb o

theorem syncPhase_of_not_wrap {p : OscP} {prev : Option OscState} (h : ¬(p.ctrl.sync = true ∧ ∃ b ∈ prev, b.wrap = true))
    (o : OscState) : syncPhase p prev o = o := by
  cases prev with
  | none => rfl
  | some b =>
    have : ¬(p.ctrl.sync && b.wrap) = true := fun hb =>
      h ⟨(Bool.and_eq_true_iff.1 hb).1, b, rfl, (Bool.and_eq_true_iff.1 hb).2⟩
    simp only [syncPhase, if_neg this]

/-- A channel's step wraps where one of its sub-steps does. -/
theorem iterate_wrapped (P : Params) (p : OscP) (dts : F64) (o : OscState) (n : Nat) :
    let r (k : Nat) := (subStep P p dts)^[k] ⟨o, f0, false⟩
    (r n).wrapped = true ↔ ∃ k, k < n ∧ fle f1 (fadd (r k).st.phase dts) = true := by
  intro r
  induction n with
  | zero => simp [r]
  | succ n ih =>
    have hsucc : r (n + 1) = subStep P p dts (r n) := Function.iterate_succ_apply' ..
    rw [hsucc]
    obtain ⟨hwrap, -, hw⟩ | ⟨hno, -, hw⟩ := subStep_cases P p dts (r n) <;> rw [hw]
    · exact iff_of_true rfl ⟨n, Nat.lt_succ_self n, hwrap⟩
    · rw [ih]
      refine ⟨fun ⟨k, hk, h⟩ => ⟨k, Nat.lt_succ_of_lt hk, h⟩, fun ⟨k, hk, h⟩ => ?_⟩
      obtain hlt | rfl := Nat.lt_succ_iff_lt_or_eq.1 hk
      · exact ⟨k, hlt, h⟩
      · exact absurd (hno.symm.trans h) (by decide)

theorem plainStep_eq_iterate (P : Params) (p : OscP) (modIn : F64) (prev : Option OscState) (o : OscState) :
    plainStep P p modIn prev o =
      let m : Nat := 2 ^ p.ctrl.ovs.val
      let r := (subStep P p (fdiv (dtOf P p modIn) (ofInt m)))^[m] ⟨syncPhase p prev o, f0, false⟩
      { r.st with out := fdiv r.acc (ofInt m), wrap := r.wrapped } := by
  rw [plainStep, subSteps_eq_iterate]

/-- Settles O25: the sub-steps are the iterates of one, each with the generator written out from the rules, and the channel's
state after them is the last one's with the mean, the product and the wrap flag. -/
theorem oscStepWaveforms : Obligations.OscStepWaveforms := by
  intro s c q o before hen
  have hbefore : prevOsc c s = before := prevOsc_eq_getElem? c s
  have hexec : exec (.oscStep (selOf c)) s =
      .next { s with osc := s.osc.set c (oscStepState theParams q s.activeM.modIn[c] before o) } := by
    rw [exec_oscStep, oscStep, hbefore]
    rfl
  refine ⟨?general, fun hsaw hbl hovs hsync hring => ?saw⟩
  case general =>
    intro m dts synced
    let r (k : Nat) : SubSteps := (subStep theParams q dts)^[k] ⟨syncPhase q before o, f0, false⟩
    have hsucc (k : Nat) : r (k + 1) = subStep theParams q dts (r k) := Function.iterate_succ_apply' ..
    refine ⟨fun k => (r k).st, fun k => (r k).acc, fun k => fle f1 (fadd (r k).st.phase dts) = true, syncPhase_of_wrap (o := o),
      syncPhase_of_not_wrap (o := o), rfl, fun k _ => ⟨?_, Iff.rfl, fun hw => ?_, fun hw => ?_⟩,
      ringOut q before (fdiv (r m).acc (ofInt m)), (r m).wrapped, iterate_wrapped theParams q dts _ m, fun b hb hring => ?_,
      fun hoff => ?_, ?_⟩
    · dsimp only
      rw [hsucc, ruleEval_eq]
      rfl
    · dsimp only at hw ⊢
      rw [hsucc, ruleEval_eq]
      obtain ⟨-, hst, -⟩ | ⟨hno, -⟩ := subStep_cases theParams q dts (r k)
      · exact hst
      · exact absurd (hno.symm.trans hw) (by decide)
    · dsimp only at hw ⊢
      rw [hsucc, ruleEval_eq]
      obtain ⟨hyes, -⟩ | ⟨-, hst, -⟩ := subStep_cases theParams q dts (r k)
      · exact absurd hyes hw
      · exact hst
    · rw [hb, ringOut_on hring]
    · obtain hnone | hring := hoff
      · rw [hnone]
        rfl
      · exact ringOut_off hring before _
    · rw [hexec, oscStepState_eq_plainStep hen, plainStep_eq_iterate]
      rfl
  case saw =>
    intro dt p correction y sum
    have heval : evalWave theParams q p dt o = (y, o) := by
      unfold evalWave
      rw [hsaw, hbl]
      rfl
    rw [hexec, oscStepState_single hen hovs hsync hring]
    have hdt : dtOf theParams q s.activeM.modIn[c] = ruleDt s c := (ruleDt_eq s c).symm
    rw [hdt, subStep_of_evalWave (r := ⟨o, f0, false⟩) heval]
    simp only [Bool.false_or]
    rfl

/-! ### Noise -/

theorem ratOf_fTwo31 : ratOf fTwo31 = 2 ^ 31 := by
  rw [show fTwo31 = powerPattern 31 by decide, ratOf_powerPattern (by decide)]

/-- A multiple of `2 ^ -31` below 1 is a finite value. -/
theorem exists_ratOf_eq_div_two31 {n : Nat} (hn : n < 2 ^ 32) : ∃ y, isFinite y = true ∧ ratOf y = (n : ℚ) / 2 ^ 31 := by
  have hval : (n : ℚ) * 2 ^ (-31 : Int) = n / 2 ^ 31 := by rw [zpow_neg, ← div_eq_mul_inv]; norm_num
  have hn' : (n : ℚ) < 2 ^ 32 := by exact_mod_cast hn
  have hlt : (n : ℚ) * 2 ^ (-31 : Int) < 2 ^ 1024 := by
    rw [hval, div_lt_iff₀ (by positivity)]
    calc (n : ℚ) < 2 ^ 32 := hn'
      _ ≤ 2 ^ 1024 := pow_le_pow_right₀ one_le_two (by decide)
      _ ≤ 2 ^ 1024 * 2 ^ 31 := le_mul_of_one_le_right (by positivity) (one_le_pow₀ one_le_two)
  rw [← hval]
  exact exists_ratOf_eq (by omega) (by decide) hlt

/-- A sample is exact: `x / 2 ^ 31` and the difference from 1 are multiples of `2 ^ -31`. -/
theorem ratOf_noiseValue (x : U32) : isFinite (noiseValue x) = true ∧ ratOf (noiseValue x) = (x.toNat : ℚ) / 2 ^ 31 - 1 := by
  have hx := x.isLt
  obtain ⟨hfin, hval⟩ := ratOf_ofInt (n := (x.toNat : Int)) (by rw [Int.natAbs_natCast]; omega)
  rw [Int.cast_natCast] at hval
  have hdiv := fdiv_monotone (b := fTwo31) hfin (by decide) (by rw [ratOf_fTwo31]; positivity)
  rw [hval, ratOf_fTwo31] at hdiv
  obtain ⟨hdfin, hdval⟩ := hdiv.exact (exists_ratOf_eq_div_two31 hx)
  have hsub := fsub_monotone (b := f1) hdfin (by decide)
  rw [hdval, ratOf_f1] at hsub
  refine hsub.exact ?_
  obtain hle | hlt := le_or_gt (2 ^ 31) x.toNat
  · obtain ⟨y, hy, hyv⟩ := exists_ratOf_eq_div_two31 (n := x.toNat - 2 ^ 31) (by omega)
    refine ⟨y, hy, hyv.trans ?_⟩
    rw [Nat.cast_sub hle]
    push_cast
    ring
  · obtain ⟨y, hy, hyv⟩ := exists_ratOf_eq_neg (exists_ratOf_eq_div_two31 (n := 2 ^ 31 - x.toNat) (by omega))
    refine ⟨y, hy, hyv.trans ?_⟩
    rw [Nat.cast_sub hlt.le]
    push_cast
    ring

/-- Settles O26: the generator, its samples, and the one draw of a noise channel's one sub-step. -/
theorem noiseChannel : Obligations.NoiseChannel := by
  refine ⟨fun _ h => xorshift_ne_zero h, ratOf_noiseValue, ?_⟩
  intro s c q hen hwave hovs hring hsync a b x
  have heval (ph dts : F64) (o : OscState) :
      evalWave theParams q ph dts o = (noiseValue (xorshift o.noise), { o with noise := xorshift o.noise }) := by
    unfold evalWave
    rw [hwave]
  refine ⟨_, exec_oscStep c s, ?_⟩
  rw [oscStep, oscStepState_single hen hovs hsync hring, subStep_of_evalWave (heval _ _ _), setOsc_get_same]
  exact ⟨rfl, rfl, rfl⟩

end Sys2Proof.Machine

/-! PROOFS. `FILT_PROC`: its sub-samples, which memories and elements it writes, the comb, the second-order topologies with the
coefficients that the host reads, and the ladder's clamp (42_filters.md R231 to R254). -/

namespace Sys2Proof.Machine

theorem exec_filtProc (s : State) : exec .filtProc s = .next (filtStep theParams s.filtIn s) := rfl

/-! ### Sub-samples -/

section
variable (P : Params) (p : FiltP) (cutoff xprev xd rate : F64) (m : Nat)

/-- The last of `n + 1` sub-samples. -/
theorem filtSubSteps_succ (n k : Nat) (r : F64 × FiltState) :
    filtSubSteps P p cutoff xprev xd rate m (n + 1) k r =
      let q := filtSubSteps P p cutoff xprev xd rate m n k r
      let t := topoStep P p cutoff (filtInput xprev xd m (k + n)) rate q.2
      (fadd q.1 t.1, t.2) := by
  induction n generalizing k r with
  | zero => rfl
  | succ n ih =>
    rw [filtSubSteps, ih (k + 1), show k + 1 + n = k + (n + 1) by omega]
    rfl

end

/-- The line to the driven input, as the rule writes it (42_filters.md R232). -/
theorem filtInput_eq (xprev xd : F64) (m k : Nat) :
    filtInput xprev xd m k =
      if k + 1 < m then fadd xprev (fmul (fsub xd xprev) (fdiv (ofInt (k + 1)) (ofInt m))) else xd := by
  unfold filtInput
  by_cases h : k + 1 < m
  · rw [if_pos h, if_pos (by omega)]
  · rw [if_neg h, if_neg (by omega)]

/-- Without oversampling there is one sub-sample, of the driven input. -/
theorem filtStepState_single {P : Params} {p : FiltP} (h : p.ctrl.fovs = 0) (mb : MBank) (x : F64) (f : FiltState) :
    filtStepState P p mb x f =
      let t := topoStep P p (cutoffEff p mb) (fmul p.drive x) (filtRate P p.ctrl) f
      { t.2 with xprev := fmul p.drive x, out := fdiv (fadd f0 t.1) f1 } := by
  have hfactor : 2 ^ (0 : Fin 4).val = 1 := rfl
  have hone : ofInt ((1 : Nat) : Int) = f1 := by decide
  have hinput : filtInput f.xprev (fmul p.drive x) 1 0 = fmul p.drive x := if_neg (Nat.lt_irrefl 0)
  unfold filtStepState
  simp only [h, hfactor, hone, filtSubSteps, hinput]

/-! ### Which memories and elements it writes -/

theorem element_filtStep {x : F64} {s : State} {sp : Space} (h : sp ≠ .comb) (P : Params) (i : Nat) :
    (filtStep P x s).element sp i = s.element sp i := by
  cases sp <;> first | rfl | exact absurd rfl h

/-- The comb line after `j` sub-samples: the write index `j` further, the elements it did not pass unchanged. -/
structure CombAfter (P : Params) (f : FiltState) (j : Nat) (g : FiltState) : Prop where
  wf : memWf P.maxComb g.cline = true
  cw : g.cw = (f.cw + j) % P.maxComb
  kept : ∀ i, (∀ k, k < j → i ≠ (f.cw + k) % P.maxComb) → memRead g.cline i = memRead f.cline i

theorem FiltState.MemoryOk.combAfter_zero {P : Params} {f : FiltState} (h : f.MemoryOk P) : CombAfter P f 0 f where
  wf := h.cline
  cw := (Nat.mod_eq_of_lt h.cw).symm
  kept _ _ := rfl

theorem CombAfter.comb {P : Params} {p : FiltP} {f g : FiltState} {j : Nat} (hP : 0 < P.maxComb) (h : CombAfter P f j g)
    (u rate : F64) : CombAfter P f (j + 1) (Machine.comb P p u rate g).2 where
  wf := memWf_memWrite h.wf _ (by rw [h.cw]; exact Nat.mod_lt _ hP)
  cw := by
    change (g.cw + 1) % P.maxComb = _
    rw [h.cw, Nat.mod_add_mod]
    rfl
  kept i hi := by
    have hne : i ≠ g.cw := by
      rw [h.cw]
      exact hi j (Nat.lt_succ_self j)
    exact (memRead_memWrite_other h.wf hne _).trans (h.kept i fun k hk => hi k (Nat.lt_succ_of_lt hk))

theorem combAfter_filtStepState {P : Params} {p : FiltP} (htopo : p.ctrl.topo = .comb) (hP : 0 < P.maxComb) (mb : MBank)
    (x : F64) {f : FiltState} (h : f.MemoryOk P) : CombAfter P f (2 ^ p.ctrl.fovs.val) (filtStepState P p mb x f) := by
  have hsub := filtSubSteps_count (P := P) (p := p) (cutoff := cutoffEff p mb) (xprev := f.xprev) (xd := fmul p.drive x)
    (rate := filtRate P p.ctrl) (m := 2 ^ p.ctrl.fovs.val) (CombAfter P f)
    (fun j u g hg => by rw [topoStep_comb htopo]; exact hg.comb hP u _) (2 ^ p.ctrl.fovs.val) 0 0 (f0, f) h.combAfter_zero
  rw [Nat.zero_add] at hsub
  exact ⟨hsub.wf, hsub.cw, hsub.kept⟩

/-- What a topology's step keeps, `FILT_PROC` keeps, but for the driven input and the output that it sets itself. -/
theorem filtStepState_induct {P : Params} {p : FiltP} (C : FiltState → Prop)
    (hstep : ∀ cutoff u rate g, C g → C (topoStep P p cutoff u rate g).2) (hset : ∀ xd y g, C g → C { g with xprev := xd, out := y })
    (mb : MBank) (x : F64) {f : FiltState} (h : C f) : C (filtStepState P p mb x f) :=
  hset _ _ _ (filtSubSteps_induct C (fun u g => hstep _ u _ g) _ _ _ h)

/-- Settles O31: the memories that the topology that runs does not write are kept through every sub-sample, and the comb
line's through every store but those at the indices passed. -/
theorem filtProcFrame : Obligations.FiltProcFrame := by
  intro s hmem
  obtain ⟨hf, -, -⟩ := memoriesOk_iff.1 hmem
  let p := s.activeP.filt
  have hkeep {C : FiltState → Prop} (hstep : ∀ cutoff u rate g, C g → C (topoStep theParams p cutoff u rate g).2)
      (hset : ∀ xd y g, C g → C { g with xprev := xd, out := y }) (h : C s.filt) :
      C (filtStepState theParams p s.activeM s.filtIn s.filt) := filtStepState_induct C hstep hset _ _ h
  refine ⟨_, exec_filtProc s, rfl, rfl, fun h => ?ladder, fun h => ?formant, fun h => ?multi, fun h => ?biquad,
    fun h => ?notComb, fun h => ?comb⟩
  case ladder =>
    refine hkeep (C := fun g => g.z = s.filt.z ∧ g.ladderY4 = s.filt.ladderY4) (fun c u r g hg => ?_) (fun _ _ _ => id)
      ⟨rfl, rfl⟩
    obtain ⟨-, -, hframe, -⟩ := topoStep_frame theParams p c u r g
    exact ⟨(hframe h).1.trans hg.1, (hframe h).2.trans hg.2⟩
  case formant =>
    refine hkeep (C := fun g => g.fq = s.filt.fq) (fun c u r g hg => ?_) (fun _ _ _ => id) rfl
    obtain ⟨-, -, -, hframe, -⟩ := topoStep_frame theParams p c u r g
    exact (hframe h).trans hg
  case multi =>
    refine hkeep (C := fun g => g.s1 = s.filt.s1) (fun c u r g hg => ?_) (fun _ _ _ => id) rfl
    obtain ⟨-, -, -, -, hframe, -⟩ := topoStep_frame theParams p c u r g
    exact (hframe h).trans hg
  case biquad =>
    refine hkeep (C := fun g => g.bq = s.filt.bq) (fun c u r g hg => ?_) (fun _ _ _ => id) rfl
    obtain ⟨-, -, -, -, -, hframe, -⟩ := topoStep_frame theParams p c u r g
    exact (hframe (by simpa using h)).trans hg
  case notComb =>
    have hcomb := hkeep (C := fun g => g.cs = s.filt.cs ∧ g.cw = s.filt.cw ∧ g.cline = s.filt.cline) (fun c u r g hg => by
      obtain ⟨-, -, -, -, -, -, hframe⟩ := topoStep_frame theParams p c u r g
      obtain ⟨hcs, hcw, hcline⟩ := hframe h
      exact ⟨hcs.trans hg.1, hcw.trans hg.2.1, hcline.trans hg.2.2⟩) (fun _ _ _ => id) ⟨rfl, rfl, rfl⟩
    obtain ⟨hcs, hcw, hcline⟩ := hcomb
    refine ⟨hcs, hcw, fun sp i => ?_⟩
    by_cases hsp : sp = .comb
    · subst hsp
      exact element_of_mem_eq (s := s) (t := filtStep theParams s.filtIn s) (sp := .comb) hcline i
    · exact element_filtStep hsp theParams i
  case comb =>
    have hafter := combAfter_filtStepState (p := p) h one_le_maxComb s.activeM s.filtIn hf
    refine ⟨hafter.cw, fun sp i hi => ?_⟩
    by_cases hsp : sp = .comb
    · subst hsp
      exact hafter.kept i fun k hk hik => hi k hk ⟨rfl, hik⟩
    · exact element_filtStep hsp theParams i

/-- Settles O32: one sub-sample of the comb, its store at the write index. -/
theorem combFilter : Obligations.CombFilter := by
  intro s hmem htopo hfovs q len d cs u y
  obtain ⟨hf, -, -⟩ := memoriesOk_iff.1 hmem
  have hstate : filtStepState theParams q s.activeM s.filtIn s.filt =
      { s.filt with
        out := fdiv (fadd f0 y) f1, xprev := u, cs := cs, cw := (s.filt.cw + 1) % theParams.maxComb,
        cline := memWrite s.filt.cline s.filt.cw y } := by
    have hone : ofInt ((2 : Int) ^ (0 : Fin 4).val) = f1 := by decide
    have hrate : filtRate theParams q.ctrl = fmul theParams.fs f1 := by rw [filtRate, hfovs, hone]
    rw [filtStepState_single hfovs, topoStep_comb htopo, hrate]
    rfl
  refine ⟨_, exec_filtProc s, fun sp i => ?_, ?_⟩
  · by_cases hsp : sp = .comb
    · subst hsp
      simp only [true_and]
      change memRead (filtStepState theParams q s.activeM s.filtIn s.filt).cline i = _
      rw [hstate]
      exact memRead_memWrite hf.cline _ _ _
    · rw [if_neg fun h => hsp h.1]
      exact element_filtStep hsp theParams i
  · change { s with filt := filtStepState theParams q s.activeM s.filtIn s.filt } = _
    rw [filtStep_filt]
    rw [hstate]

/-! ### Every topology and oversampling factor -/

/-- The ladder's output above resonance 0.95, whatever the sub-sample (42_filters.md R244, R245). -/
theorem isNaN_or_inRange_fclamp (y : F64) :
    isNaN (fclamp y fNeg1 f1) = true ∨ inRange fNeg1 f1 (fclamp y fNeg1 f1) = true := by
  cases h : isNaN y
  · exact .inr (inRange_fclamp (by decide) h)
  · refine .inl ?_
    have hlo : flt y fNeg1 = false := by simp [flt, h]
    have hhi : flt f1 y = false := by simp [flt, h]
    rw [fclamp, hlo, hhi]
    exact h

theorem topoStep_ladder {P : Params} {p : FiltP} (h : p.ctrl.topo = .ladder) (cutoff u rate : F64) (f : FiltState) :
    topoStep P p cutoff u rate f = ladder P p u (warpLimit cutoff rate) rate f := by
  unfold topoStep
  rw [h]

/-- Settles O34: the sub-samples are the iterates of the topology written out from the rules; the ladder's feedback value is
the clamped output of the last of them. -/
theorem filterStep : Obligations.FilterStep := by
  refine ⟨?steps, ?clamp⟩
  case steps =>
    intro s m xd input
    let q := s.activeP.filt
    let run (k : Nat) : F64 × FiltState := filtSubSteps theParams q (cutoffEff q s.activeM) s.filt.xprev xd
      (filtRate theParams q.ctrl) m k 0 (f0, s.filt)
    have hrun (k : Nat) : run (k + 1) = (fadd (run k).1 (ruleTopo s (input k) (run k).2).1, (ruleTopo s (input k) (run k).2).2) := by
      have hinput : input k = filtInput s.filt.xprev xd m (0 + k) := by rw [filtInput_eq, Nat.zero_add]
      rw [hinput, ruleTopo_eq]
      exact filtSubSteps_succ ..
    refine ⟨fun k => (run k).2, fun k => (run k).1, rfl, rfl, fun k _ => ?_, rfl⟩
    dsimp only
    rw [hrun]
    exact ⟨rfl, rfl⟩
  case clamp =>
    intro s htopo hres
    refine ⟨_, exec_filtProc s, ?_⟩
    change flt 0x3FEE666666666666#64 _ = true at hres
    rw [lit_95] at hres
    obtain ⟨n, hn⟩ : ∃ n, 2 ^ s.activeP.filt.ctrl.fovs.val = n + 1 := Nat.exists_eq_succ_of_ne_zero (Nat.two_pow_pos _).ne'
    rw [filtStep_filt, filtStepState, hn]
    dsimp only
    rw [filtSubSteps_succ]
    dsimp only
    rw [topoStep_ladder htopo, (ladder_out theParams _ _ _ _ _).1]
    obtain ⟨y, hy⟩ := (ladder_out theParams s.activeP.filt _ _ _ _).2 hres
    rw [hy]
    exact isNaN_or_inRange_fclamp y

/-! ### The coefficients that the host reads -/

theorem Answers.unique {s : State} {a : BitVec 12} {v w : Word} (hv : Answers s a v) (hw : Answers s a w) : v = w := by
  have hport := congrArg (fun t : State => t.port.responses) (Host.Outcome.next.inj (hv.symm.trans hw))
  simpa using hport

/-- A biquad tuple as the five registers read it. -/
structure AnswersCoefs (s : State) (a : BitVec 12) (k : Coefs) : Prop where
  b0 : Answers s a k.b0
  b1 : Answers s (a + 1) k.b1
  b2 : Answers s (a + 2) k.b2
  a1 : Answers s (a + 3) k.a1
  a2 : Answers s (a + 4) k.a2

theorem answersCoefs_filt (s : State) : AnswersCoefs s 0x222 (filtTuple theParams s.activeP.filt s.activeM) where
  b0 := answers_of_regAt (regAt_filt (by decide) (by decide) rfl) nofun rfl
  b1 := answers_of_regAt (regAt_filt (by decide) (by decide) rfl) nofun rfl
  b2 := answers_of_regAt (regAt_filt (by decide) (by decide) rfl) nofun rfl
  a1 := answers_of_regAt (regAt_filt (by decide) (by decide) rfl) nofun rfl
  a2 := answers_of_regAt (regAt_filt (by decide) (by decide) rfl) nofun rfl

theorem answersCoefs_tone (s : State) : AnswersCoefs s 0x41C (toneCoefs theParams s.activeP.efx) where
  b0 := answers_of_regAt (regAt_efx (by decide) (by decide) rfl) nofun rfl
  b1 := answers_of_regAt (regAt_efx (by decide) (by decide) rfl) nofun rfl
  b2 := answers_of_regAt (regAt_efx (by decide) (by decide) rfl) nofun rfl
  a1 := answers_of_regAt (regAt_efx (by decide) (by decide) rfl) nofun rfl
  a2 := answers_of_regAt (regAt_efx (by decide) (by decide) rfl) nofun rfl

theorem AnswersCoefs.unique {s : State} {a : BitVec 12} {k l : Coefs} (hk : AnswersCoefs s a k) (hl : AnswersCoefs s a l) :
    k = l := by
  cases k
  cases l
  rw [Coefs.mk.injEq]
  exact ⟨hk.b0.unique hl.b0, hk.b1.unique hl.b1, hk.b2.unique hl.b2, hk.a1.unique hl.a1, hk.a2.unique hl.a2⟩

/-- The second-order topologies: which tuple they use (42_filters.md R233, R241, R243). -/
theorem filtCoefs_multi (P : Params) {p : FiltP} (h : p.ctrl.topo = .svf ∨ p.ctrl.topo = .multi ∧ ¬OnePoleForm p)
    (fcw rate : F64) : filtCoefs P p fcw rate = some (coefOf P p.ctrl.resp fcw rate (qMulti p)) := by
  unfold filtCoefs
  obtain ht | ⟨ht, hone⟩ := h <;> rw [ht]
  rw [onePoleForm_iff] at hone
  exact if_neg hone

theorem filtCoefs_sallenKey (P : Params) {p : FiltP} (h : p.ctrl.topo = .sallenKey) (fcw rate : F64) :
    filtCoefs P p fcw rate = some (coefOf P .lp fcw rate (qSallenKey p)) := by
  unfold filtCoefs
  rw [h]

theorem filtCoefs_none (P : Params) {p : FiltP} (h : p.ctrl.topo ∈ [.ladder, .comb, .formant] ∨ OnePoleForm p)
    (fcw rate : F64) : filtCoefs P p fcw rate = none := by
  unfold filtCoefs
  obtain ht | hone := h
  · simp only [List.mem_cons, List.not_mem_nil, or_false] at ht
    obtain ht | ht | ht := ht <;> rw [ht]
  · rw [hone.1]
    exact if_pos ((onePoleForm_iff p).1 hone)

/-- A topology that has a tuple is the biquad with it (42_filters.md R242). -/
theorem topoStep_of_filtCoefs {P : Params} {p : FiltP} {cutoff rate : F64} {k : Coefs}
    (h : filtCoefs P p (warpLimit cutoff rate) rate = some k) (u : F64) (f : FiltState) :
    topoStep P p cutoff u rate f = sharedBiquad k u f := by
  unfold filtCoefs at h
  unfold topoStep
  cases ht : p.ctrl.topo <;> rw [ht] at h <;> dsimp only at h ⊢
  case multi =>
    split at h
    · cases h
    · rw [Option.some.inj h, if_neg ‹_›]
  case sallenKey | svf => rw [Option.some.inj h]
  case ladder | comb | formant => cases h

theorem exists_filtCoefs (P : Params) {p : FiltP} (htopo : p.ctrl.topo ∈ [.multi, .sallenKey, .svf])
    (hone : ¬OnePoleForm p) (fcw rate : F64) : ∃ k, filtCoefs P p fcw rate = some k := by
  simp only [List.mem_cons, List.not_mem_nil, or_false] at htopo
  obtain ht | ht | ht := htopo
  · exact ⟨_, filtCoefs_multi P (.inr ⟨ht, hone⟩) fcw rate⟩
  · exact ⟨_, filtCoefs_sallenKey P ht fcw rate⟩
  · exact ⟨_, filtCoefs_multi P (.inl ht) fcw rate⟩

/-- `FILT_PROC` of a second-order topology computes with the tuple that the registers read. -/
theorem filtStepState_filtTuple {P : Params} {p : FiltP} (htopo : p.ctrl.topo ∈ [.multi, .sallenKey, .svf])
    (hone : ¬OnePoleForm p) (hfovs : p.ctrl.fovs = 0) (mb : MBank) (x : F64) (f : FiltState) :
    filtStepState P p mb x f =
      let t := biquadStep f.bq (filtTuple P p mb) (fmul p.drive x)
      { f with xprev := fmul p.drive x, out := fdiv (fadd f0 t.1) f1, bq := t.2 } := by
  obtain ⟨k, hk⟩ := exists_filtCoefs P htopo hone (warpLimit (cutoffEff p mb) (filtRate P p.ctrl)) (filtRate P p.ctrl)
  have htuple : filtTuple P p mb = k := by rw [filtTuple, hk]; rfl
  rw [filtStepState_single hfovs, topoStep_of_filtCoefs hk, htuple]
  rfl

/-- Settles O33: each register reads its part of the tuple of `Coef` written out from the rules, and the steps use the tuple
that the registers read. -/
theorem biquadFilters : Obligations.BiquadFilters := by
  refine ⟨?reads, ?steps⟩
  case reads =>
    intro s answers q reads fcw e k
    have hreads {c : Coefs} (h : filtTuple theParams q s.activeM = c) : reads #v[c.b0, c.b1, c.b2, c.a1, c.a2] := by
      subst h
      have h := answersCoefs_filt s
      exact ⟨h.b0, h.b1, h.b2, h.a1, h.a2⟩
    have htone := answersCoefs_tone s
    have hk : k = #v[(toneCoefs theParams e).b0, (toneCoefs theParams e).b1, (toneCoefs theParams e).b2,
        (toneCoefs theParams e).a1, (toneCoefs theParams e).a2] := by
      rw [show k = ruleCoefs _ _ _ _ from rfl, ruleCoefs_eq, ruleWarp_eq]
      rfl
    refine ⟨fun h => ?_, fun h => ?_, fun h => ?_, ?_⟩
    · rw [ruleCoefs_eq, ruleQm_eq]
      refine hreads ?_
      rw [filtTuple, filtCoefs_multi theParams h, ← ruleWarp_eq]
      rfl
    · rw [ruleCoefs_eq]
      refine hreads ?_
      rw [filtTuple, filtCoefs_sallenKey theParams h, ← ruleWarp_eq]
      rfl
    · refine hreads (c := ⟨f0, f0, f0, f0, f0⟩) ?_
      rw [filtTuple, filtCoefs_none theParams h]
      rfl
    · rw [hk]
      exact ⟨htone.b0, htone.b1, htone.b2, htone.a1, htone.a2⟩
  case steps =>
    intro s b0 b1 b2 a1 a2 answers output u emix
    refine ⟨fun htopo hone hfovs h0 h1 h2 h3 h4 => ?_, fun hmode h0 h1 h2 h3 h4 => ?_⟩
    · have hk := (answersCoefs_filt s).unique (l := ⟨b0, b1, b2, a1, a2⟩) ⟨h0, h1, h2, h3, h4⟩
      rw [exec_filtProc, filtStep, filtStepState_filtTuple htopo hone hfovs, hk]
      rfl
    · have hk := (answersCoefs_tone s).unique (l := ⟨b0, b1, b2, a1, a2⟩) ⟨h0, h1, h2, h3, h4⟩
      have hexec : exec .efxProc s = .next (efxStep theParams s.inL s.inR s) := rfl
      rw [hexec, efxStep, efxStepState, hmode]
      dsimp only
      rw [efxBiquad, hk]
      rfl

end Sys2Proof.Machine

/-! PROOFS. `DLY_PROC` in every mode: what a mode's colouring gives the wet and the feedback pair and leaves in the state, what the
step stores and outputs, and both without analog modelling (43_delay_lines.md R292 to R305). -/

namespace Sys2Proof.Machine

theorem exec_dlyProc (s : State) : exec .dlyProc s = .next (dlyStep theParams s.inL s.inR s) := rfl

/-! ### The colouring -/

section
variable (P : Params) (q : DlyP) (analog : Bool) (dl dr : F64) (st : DlyState)

/-- The wet pair is coloured in one mode alone. -/
theorem colour_wet :
    if analog = true ∧ q.ctrl.mode = .bbdChorus then
      (colour P q analog dl dr st).wl = (bbdPair P q dl dr st).1 ∧
        (colour P q analog dl dr st).wr = (bbdPair P q dl dr st).2.1
    else (colour P q analog dl dr st).wl = dl ∧ (colour P q analog dl dr st).wr = dr := by
  unfold colour
  cases q.ctrl.mode <;> cases analog <;> simp

/-- A bucket-brigade mode with analog modelling colours the feedback pair and draws the noise. -/
theorem colour_of_bbd {q : DlyP} (h : q.ctrl.mode = .bbdDelay ∨ q.ctrl.mode = .bbdChorus) :
    (colour P q true dl dr st).fl = (bbdPair P q dl dr st).1 ∧ (colour P q true dl dr st).fr = (bbdPair P q dl dr st).2.1 ∧
      (colour P q true dl dr st).st = (bbdPair P q dl dr st).2.2 := by
  unfold colour
  obtain h | h := h <;> rw [h] <;> exact ⟨rfl, rfl, rfl⟩

/-- Elsewhere the state is kept, and the tape alone saturates what it feeds back. -/
theorem colour_of_not_bbd {q : DlyP} {analog : Bool}
    (h : ¬(analog = true ∧ (q.ctrl.mode = .bbdDelay ∨ q.ctrl.mode = .bbdChorus))) :
    (colour P q analog dl dr st).st = st ∧
      if analog = true ∧ q.ctrl.mode = .tape then
        (colour P q analog dl dr st).fl = P.tanh dl ∧ (colour P q analog dl dr st).fr = P.tanh dr
      else (colour P q analog dl dr st).fl = dl ∧ (colour P q analog dl dr st).fr = dr := by
  unfold colour
  cases hmode : q.ctrl.mode <;> cases analog <;> simp_all

/-- Without analog modelling nothing is coloured. -/
theorem colour_digital : colour P q false dl dr st = ⟨dl, dr, dl, dr, st⟩ := by
  unfold colour
  cases q.ctrl.mode <;> rfl

theorem isDelayMode_iff (m : DelayMode) : isDelayMode m = true ↔ m.isDelay := by cases m <;> decide

theorem wetGain_of_isDelay {q : DlyP} (h : q.ctrl.mode.isDelay) : wetGain q = fmul q.dmix q.dwidth :=
  if_pos ((isDelayMode_iff _).2 h)

theorem wetGain_of_not_isDelay {q : DlyP} (h : ¬q.ctrl.mode.isDelay) : wetGain q = q.dmix :=
  if_neg fun hd => h ((isDelayMode_iff _).1 hd)

theorem feedbackPair_eq (q : DlyP) (c : Colour) :
    feedbackPair q c = if q.ctrl.pingPong = true ∧ q.ctrl.mode.isDelay then (c.fr, c.fl) else (c.fl, c.fr) := by
  simp only [feedbackPair, Bool.and_eq_true, isDelayMode_iff]

/-- The bucket-brigade pair, as the rule writes it (43_delay_lines.md R303). -/
theorem bbdPair_eq (q : DlyP) (dl dr : F64) (st : DlyState) :
    let w := ruleG (ruleWarp q.bbdLpf theParams.fs) theParams.fs
    let g := fdiv w (fadd f1 w)
    let vl := fmul g (fsub dl st.blpL)
    let vr := fmul g (fsub dr st.blpR)
    let x1 := ruleDraw st.noise
    let x2 := ruleDraw x1
    bbdPair theParams q dl dr st =
      (fadd (fadd vl st.blpL) (fmul q.bbdNoise (ruleNoise x1)), fadd (fadd vr st.blpR) (fmul q.bbdNoise (ruleNoise x2)),
        { st with blpL := fadd (fadd vl st.blpL) vl, blpR := fadd (fadd vr st.blpR) vr, noise := x2 }) := by
  simp only [ruleWarp_eq, ruleG_eq]
  rfl

end

/-! ### The step -/

/-- The colours of one step: those of the samples that its lengths tap. -/
def stepColour (P : Params) (s : State) : Colour :=
  let q := s.activeP.dly
  let len := lengths P q s.activeP.bpm s.activeP.ctrl.analogEn s.dly
  colour P q s.activeP.ctrl.analogEn (tap P s.dly.bufL s.dly.dw len.1) (tap P s.dly.bufR s.dly.dw len.2) s.dly

section
variable (P : Params) (l r : F64) (s : State)

theorem dlyStep_noise : (dlyStep P l r s).dly.noise = (stepColour P s).st.noise := rfl
theorem dlyStep_blpL : (dlyStep P l r s).dly.blpL = (stepColour P s).st.blpL := rfl
theorem dlyStep_blpR : (dlyStep P l r s).dly.blpR = (stepColour P s).st.blpR := rfl

theorem dlyStep_dly_outL :
    (dlyStep P l r s).dly.outL = mixOut l (stepColour P s).wl s.activeP.dly.dmix (wetGain s.activeP.dly) := rfl

theorem dlyStep_dly_outR :
    (dlyStep P l r s).dly.outR = mixOut r (stepColour P s).wr s.activeP.dly.dmix (wetGain s.activeP.dly) := rfl

theorem dlyStep_lenL :
    (dlyStep P l r s).dly.lenL =
      (lengths P s.activeP.dly s.activeP.bpm s.activeP.ctrl.analogEn s.dly).1 := rfl

theorem dlyStep_lenR :
    (dlyStep P l r s).dly.lenR =
      (lengths P s.activeP.dly s.activeP.bpm s.activeP.ctrl.analogEn s.dly).2 := rfl

end

section
variable {P : Params} {s : State} (h : s.MemoriesOk P) (l r : F64)
include h

/-- What the step stores at the write index. -/
theorem element_dlyStep_left :
    (dlyStep P l r s).element .dbufL s.dly.dw =
      fadd l (fmul s.activeP.dly.dfb (feedbackPair s.activeP.dly (stepColour P s)).1) :=
  memRead_memWrite_same (h.mem .dbufL) _ _

theorem element_dlyStep_right :
    (dlyStep P l r s).element .dbufR s.dly.dw =
      fadd r (fmul s.activeP.dly.dfb (feedbackPair s.activeP.dly (stepColour P s)).2) :=
  memRead_memWrite_same (h.mem .dbufR) _ _

end

theorem lengths_eq_rule (s : State) :
    lengths theParams s.activeP.dly s.activeP.bpm s.activeP.ctrl.analogEn s.dly =
      (ruleLimit (ruleLengths s).1, ruleLimit (ruleLengths s).2) := by
  rw [ruleLengths_eq]
  rfl

theorem stepColour_eq_rule (s : State) :
    stepColour theParams s =
      colour theParams s.activeP.dly s.activeP.ctrl.analogEn (ruleTap s .dbufL (ruleLimit (ruleLengths s).1))
        (ruleTap s .dbufR (ruleLimit (ruleLengths s).2)) s.dly := by
  rw [ruleTap_left, ruleTap_right]
  unfold stepColour
  simp only [lengths_eq_rule]

/-! ### The command -/

/-- Settles O38: the step's colours are those of the rule's lengths and taps, and each thing it leaves is one of the colours,
crossed or scaled as the mode says. -/
theorem delayModes : Obligations.DelayModes := by
  intro s hs q mode analog lenL lenR dl dr g vl vr x1 x2 bbdL bbdR
  let c := stepColour theParams s
  have hc : c = colour theParams q s.activeP.ctrl.analogEn dl dr s.dly := stepColour_eq_rule s
  have hpair := bbdPair_eq q dl dr s.dly
  refine ⟨dlyStep theParams s.inL s.inR s, c.wl, c.wr, c.fl, c.fr, exec_dlyProc s, ?wet, ?feedback, ?stored, ?lenL, ?lenR,
    fun hmode => ⟨?_, ?_⟩, fun hmode => ⟨?_, ?_⟩⟩
  case wet =>
    have hwet := colour_wet theParams q s.activeP.ctrl.analogEn dl dr s.dly
    rw [← hc, hpair] at hwet
    exact hwet
  case feedback =>
    rw [dlyStep_noise, dlyStep_blpL, dlyStep_blpR]
    change if _ then c.fl = _ ∧ c.fr = _ ∧ c.st.noise = _ ∧ c.st.blpL = _ ∧ c.st.blpR = _
      else c.st.noise = _ ∧ c.st.blpL = _ ∧ c.st.blpR = _ ∧ if _ then c.fl = _ ∧ c.fr = _ else c.fl = _ ∧ c.fr = _
    split
    · next h =>
      obtain ⟨ha, hm⟩ := h
      obtain ⟨hfl, hfr, hst⟩ := colour_of_bbd theParams dl dr s.dly hm
      rw [show s.activeP.ctrl.analogEn = true from ha] at hc
      rw [hc, hfl, hfr, hst, hpair]
      exact ⟨rfl, rfl, rfl, rfl, rfl⟩
    · next h =>
      obtain ⟨hst, hf⟩ := colour_of_not_bbd theParams dl dr s.dly h
      rw [hc, hst]
      exact ⟨rfl, rfl, rfl, hf⟩
  case stored =>
    rw [element_dlyStep_left hs, element_dlyStep_right hs, feedbackPair_eq]
    by_cases hcross : q.ctrl.pingPong = true ∧ mode.isDelay
    · rw [if_pos hcross, if_pos hcross]
      exact ⟨rfl, rfl⟩
    · rw [if_neg hcross, if_neg hcross]
      exact ⟨rfl, rfl⟩
  case lenL => rw [dlyStep_lenL, lengths_eq_rule]
  case lenR => rw [dlyStep_lenR, lengths_eq_rule]
  · rw [dlyStep_dly_outL, wetGain_of_isDelay hmode]
    rfl
  · rw [dlyStep_dly_outR, wetGain_of_isDelay hmode]
    rfl
  · rw [dlyStep_dly_outL, wetGain_of_not_isDelay hmode]
    rfl
  · rw [dlyStep_dly_outR, wetGain_of_not_isDelay hmode]
    rfl

/-- Without analog modelling the colours are the tapped samples. -/
theorem stepColour_digital {P : Params} {s : State} (h : s.activeP.ctrl.analogEn = false) :
    stepColour P s =
      let len := lengths P s.activeP.dly s.activeP.bpm s.activeP.ctrl.analogEn s.dly
      ⟨tap P s.dly.bufL s.dly.dw len.1, tap P s.dly.bufR s.dly.dw len.2, tap P s.dly.bufL s.dly.dw len.1,
        tap P s.dly.bufR s.dly.dw len.2, s.dly⟩ := by
  unfold stepColour
  rw [h]
  exact colour_digital P _ _ _ _

/-- Settles O39: only the bucket-brigade modes with analog modelling change the memories and the noise, and without it the
colours are the tapped samples at the lengths of the mode, which have no wow and no flutter. -/
theorem analogOff : Obligations.AnalogOff := by
  refine ⟨fun s h => ?kept, fun s hs hanalog hmode => ?plain⟩
  case kept =>
    have hnot : ¬(s.activeP.ctrl.analogEn = true ∧
        (s.activeP.dly.ctrl.mode = .bbdDelay ∨ s.activeP.dly.ctrl.mode = .bbdChorus)) := by
      rintro ⟨ha, hm⟩
      obtain h | h := h
      · simp [ha] at h
      · simp [not_or] at h
        exact hm.elim h.1 h.2
    obtain ⟨hst, -⟩ := colour_of_not_bbd theParams _ _ s.dly hnot
    have hcolour : (stepColour theParams s).st = s.dly := hst
    refine ⟨_, exec_dlyProc s, ?_⟩
    rw [dlyStep_noise, dlyStep_blpL, dlyStep_blpR, hcolour]
    exact ⟨rfl, rfl, rfl⟩
  case plain =>
    intro q bbd chorus beatCount base last
    have hlen := lengths_eq_rule s
    have hlengths (r : F64 × F64) (h : ruleLengths s = r) :
        (dlyStep theParams s.inL s.inR s).dly.lenL = fclamp r.1 f1 last ∧
          (dlyStep theParams s.inL s.inR s).dly.lenR = fclamp r.2 f1 last := by
      rw [dlyStep_lenL, dlyStep_lenR, hlen, h]
      exact ⟨rfl, rfl⟩
    refine ⟨dlyStep theParams s.inL s.inR s, exec_dlyProc s, fun h => hlengths (bbd, bbd) ?bbdDelay,
      fun h => hlengths (chorus s.dly.lfoL, chorus s.dly.lfoR) ?bbdChorus, fun h => hlengths (base, base) ?tape, ?stored⟩
    case bbdDelay => simp only [ruleLengths, show s.activeP.dly.ctrl.mode = .bbdDelay from h]; rfl
    case bbdChorus => simp only [ruleLengths, show s.activeP.dly.ctrl.mode = .bbdChorus from h]; rfl
    case tape =>
      simp only [ruleLengths, show s.activeP.dly.ctrl.mode = .tape from h, hanalog, Bool.false_eq_true, if_false]
      rfl
    case stored =>
      intro dl dr crossed wet
      have hc : stepColour theParams s = ⟨dl, dr, dl, dr, s.dly⟩ := by
        rw [stepColour_digital hanalog]
        simp only [dl, dr, ruleTap_left, ruleTap_right, dlyStep_lenL, dlyStep_lenR]
      have hdelay : q.ctrl.mode.isDelay ↔ q.ctrl.mode ≠ .bbdChorus := by
        change s.activeP.dly.ctrl.mode.isDelay ↔ s.activeP.dly.ctrl.mode ≠ .bbdChorus
        revert hmode
        cases s.activeP.dly.ctrl.mode <;> decide
      have hcrossed : q.ctrl.pingPong = true ∧ q.ctrl.mode.isDelay ↔ crossed := and_congr_right fun _ => hdelay
      have hfeedback : feedbackPair q ⟨dl, dr, dl, dr, s.dly⟩ = (if crossed then dr else dl, if crossed then dl else dr) := by
        rw [feedbackPair_eq]
        by_cases h : crossed
        · rw [if_pos (hcrossed.2 h), if_pos h, if_pos h]
        · rw [if_neg fun h' => h (hcrossed.1 h'), if_neg h, if_neg h]
      have hwet : wetGain q = wet := by
        by_cases h : q.ctrl.mode = .bbdChorus
        · exact (wetGain_of_not_isDelay fun hd => hdelay.1 hd h).trans (if_pos h).symm
        · exact (wetGain_of_isDelay (hdelay.2 h)).trans (if_neg h).symm
      rw [element_dlyStep_left hs, element_dlyStep_right hs, dlyStep_dly_outL, dlyStep_dly_outR, hc, hfeedback, hwet]
      exact ⟨rfl, rfl, rfl, rfl⟩

end Sys2Proof.Machine

/-! PROOFS. `EFX_PROC` and `IR_GEN`: what each mode writes, the convolution as a sum over the taps and which coefficients it
reads, the phaser's stages, and every coefficient of a generated impulse response (44_effect_filters.md R331 to R349). -/

namespace Sys2Proof.Machine

theorem exec_efxProc (s : State) : exec .efxProc s = .next (efxStep theParams s.inL s.inR s) := rfl

/-! ### The unit step by mode -/

section
variable {P : Params} {q : EfxP} (xl xr : F64) (st : EfxState)

/-- What a step leaves of the wet pair and the state of its mode. -/
def efxMixed (q : EfxP) (xl xr : F64) (w : Wet) : EfxState :=
  { w.st with outL := mixOut xl w.wl q.emix q.emix, outR := mixOut xr w.wr q.emix q.emix }

theorem efxStepState_biquad (h : q.ctrl.mode = .biquad) :
    efxStepState P q xl xr st = efxMixed q xl xr (efxBiquad P q xl xr st) := by
  unfold efxStepState
  rw [h]
  rfl

theorem efxStepState_phaser (h : q.ctrl.mode = .phaser) :
    efxStepState P q xl xr st = efxMixed q xl xr (efxPhaser P q xl xr st) := by
  unfold efxStepState
  rw [h]
  rfl

theorem efxStepState_fir (h : q.ctrl.mode = .fir) :
    efxStepState P q xl xr st = efxMixed q xl xr (efxFir P q xl xr st) := by
  unfold efxStepState
  rw [h]
  rfl

/-- What every mode keeps, and what each keeps of the other modes' memories. -/
theorem efxStepState_frame (P : Params) (q : EfxP) :
    let t := efxStepState P q xl xr st
    t.hL = st.hL ∧ t.hR = st.hR ∧ t.irDecayGen = st.irDecayGen ∧
      (q.ctrl.mode ≠ .biquad → t.eqL = st.eqL ∧ t.eqR = st.eqR) ∧
      (q.ctrl.mode ≠ .phaser → t.phL = st.phL ∧ t.phR = st.phR ∧ t.phLfo = st.phLfo ∧ t.phCoef = st.phCoef) ∧
      (q.ctrl.mode ≠ .fir → t.hw = st.hw ∧ t.histL = st.histL ∧ t.histR = st.histR) := by
  dsimp only
  cases h : q.ctrl.mode with
  | biquad => rw [efxStepState_biquad _ _ _ h]; simp [efxMixed, efxBiquad]
  | phaser => rw [efxStepState_phaser _ _ _ h]; simp [efxMixed, efxPhaser]
  | fir => rw [efxStepState_fir _ _ _ h]; simp [efxMixed, efxFir]

end

/-- What the FIR mode leaves of the histories. -/
theorem efxStep_fir {s : State} (h : s.activeP.efx.ctrl.mode = .fir) (P : Params) (l r : F64) :
    (efxStep P l r s).efx.hw = (s.efx.hw + 1) % P.maxFir ∧
      (efxStep P l r s).efx.histL = memWrite s.efx.histL s.efx.hw l ∧
      (efxStep P l r s).efx.histR = memWrite s.efx.histR s.efx.hw r := by
  rw [efxStep_efx, efxStepState_fir _ _ _ h]
  exact ⟨rfl, rfl, rfl⟩

/-- The elements after a step in FIR mode: each input at the history index. -/
theorem element_efxStep_fir {P : Params} {s : State} (hs : s.MemoriesOk P) (h : s.activeP.efx.ctrl.mode = .fir) (l r : F64)
    (sp : Space) (i : Nat) :
    (efxStep P l r s).element sp i =
      if sp = .histL ∧ i = s.efx.hw then l else if sp = .histR ∧ i = s.efx.hw then r else s.element sp i := by
  obtain ⟨hhL, hhR, -⟩ := efxStepState_frame l r s.efx P s.activeP.efx
  obtain ⟨-, hL, hR⟩ := efxStep_fir h P l r
  cases sp with
  | comb | dbufL | dbufR => rfl
  | hL => exact congrArg (memRead · i) hhL
  | hR => exact congrArg (memRead · i) hhR
  | histL =>
    refine (congrArg (memRead · i) hL).trans ((memRead_memWrite (hs.mem .histL) _ _ i).trans ?_)
    simp only [true_and, reduceCtorEq, false_and, if_false]
    rfl
  | histR =>
    refine (congrArg (memRead · i) hR).trans ((memRead_memWrite (hs.mem .histR) _ _ i).trans ?_)
    simp only [true_and, reduceCtorEq, false_and, if_false]
    rfl

/-- In another mode no element changes. -/
theorem element_efxStep_of_ne_fir {s : State} (h : s.activeP.efx.ctrl.mode ≠ .fir) (P : Params) (l r : F64) (sp : Space)
    (i : Nat) : (efxStep P l r s).element sp i = s.element sp i := by
  obtain ⟨hhL, hhR, -, -, -, hfir⟩ := efxStepState_frame l r s.efx P s.activeP.efx
  obtain ⟨-, hL, hR⟩ := hfir h
  cases sp with
  | comb | dbufL | dbufR => rfl
  | hL => exact congrArg (memRead · i) hhL
  | hR => exact congrArg (memRead · i) hhR
  | histL => exact congrArg (memRead · i) hL
  | histR => exact congrArg (memRead · i) hR

/-- Settles O40, from what each mode's step writes. -/
theorem efxProcFrame : Obligations.EfxProcFrame := by
  intro s hs
  obtain ⟨-, -, hdecay, heq, hph, hfir⟩ := efxStepState_frame s.inL s.inR s.efx theParams s.activeP.efx
  exact ⟨_, exec_efxProc s, rfl, hdecay, heq, hph,
    fun h => ⟨(hfir h).1, element_efxStep_of_ne_fir h theParams s.inL s.inR⟩,
    fun h => ⟨(efxStep_fir h theParams s.inL s.inR).1, element_efxStep_fir hs h s.inL s.inR⟩⟩

/-! ### The convolution -/

theorem firSum_eq_foldl (size : Nat) (h hist : Mem) (hw n : Nat) :
    firSum size h hist hw n =
      (List.range n).foldl (fun y i => fadd y (fmul (memRead h i) (memRead hist (modIndex ((hw : Int) - i) size)))) f0 := by
  induction n with
  | zero => rfl
  | succ n ih =>
    rw [List.range_succ, List.foldl_append, ← ih]
    rfl

/-- The sum reads the coefficients below the length alone. -/
theorem firSum_congr {h h' : Mem} {n : Nat} (heq : ∀ i, i < n → memRead h i = memRead h' i) (size : Nat) (hist : Mem)
    (hw : Nat) : firSum size h hist hw n = firSum size h' hist hw n := by
  induction n with
  | zero => rfl
  | succ n ih =>
    rw [firSum, firSum, ih fun i hi => heq i (Nat.lt_succ_of_lt hi), heq n (Nat.lt_succ_self n)]

/-- Settles O41: the unit's sum is the fold over the taps, on the histories with the inputs stored. -/
theorem firConvolution : Obligations.FirConvolution := by
  intro s _ hmode q n
  refine ⟨_, exec_efxProc s, ?_⟩
  rw [efxStep_efx, efxStepState_fir _ _ _ hmode]
  dsimp only [efxMixed, efxFir, mixOut]
  rw [firSum_eq_foldl, firSum_eq_foldl]
  have hL : (efxStep theParams s.inL s.inR s).element .histL = memRead (memWrite s.efx.histL s.efx.hw s.inL) :=
    congrArg memRead (efxStep_fir hmode theParams s.inL s.inR).2.1
  have hR : (efxStep theParams s.inL s.inR s).element .histR = memRead (memWrite s.efx.histR s.efx.hw s.inR) :=
    congrArg memRead (efxStep_fir hmode theParams s.inL s.inR).2.2
  rw [hL, hR]
  exact ⟨rfl, rfl⟩

/-- A step with other coefficients that agree below the lengths is the step but for the coefficients it keeps. -/
theorem efxStepState_withCoefs (P : Params) (q : EfxP) (xl xr : F64) (st : EfxState) {hL hR : Mem}
    (hl : ∀ i : Nat, (i : Int) < q.firLenL.toInt → memRead hL i = memRead st.hL i)
    (hr : ∀ i : Nat, (i : Int) < q.firLenR.toInt → memRead hR i = memRead st.hR i) :
    efxStepState P q xl xr { st with hL := hL, hR := hR } = { efxStepState P q xl xr st with hL := hL, hR := hR } := by
  cases h : q.ctrl.mode with
  | biquad => rw [efxStepState_biquad _ _ _ h, efxStepState_biquad _ _ _ h]; rfl
  | phaser => rw [efxStepState_phaser _ _ _ h, efxStepState_phaser _ _ _ h]; rfl
  | fir =>
    have hsumL (hist : Mem) (hw : Nat) : firSum P.maxFir hL hist hw (i64Of q.firLenL).toNat =
        firSum P.maxFir st.hL hist hw (i64Of q.firLenL).toNat :=
      firSum_congr (fun i hi => hl i (Int.lt_toNat.1 hi)) ..
    have hsumR (hist : Mem) (hw : Nat) : firSum P.maxFir hR hist hw (i64Of q.firLenR).toNat =
        firSum P.maxFir st.hR hist hw (i64Of q.firLenR).toNat :=
      firSum_congr (fun i hi => hr i (Int.lt_toNat.1 hi)) ..
    rw [efxStepState_fir _ _ _ h, efxStepState_fir _ _ _ h]
    simp only [efxMixed, efxFir, hsumL, hsumR]

/-- Two taps fewer than `n` steps back are different elements. -/
theorem modIndex_sub_ne {n i j : Nat} (hw : Int) (hi : i < n) (hj : j < n) (h : i ≠ j) :
    modIndex (hw - i) n ≠ modIndex (hw - j) n := by
  intro heq
  have hmod : (hw - i) % n = (hw - j) % n := by
    have hleft := Int.emod_nonneg (hw - i) (b := n) (by omega)
    have hright := Int.emod_nonneg (hw - j) (b := n) (by omega)
    unfold modIndex at heq
    omega
  have hzero : hw - j - (hw - i) = 0 :=
    Int.eq_zero_of_abs_lt_dvd (Int.ModEq.dvd hmod) (by rw [abs_lt]; omega)
  omega

/-- Settles O42. -/
theorem firUnusedCoefficients : Obligations.FirUnusedCoefficients := by
  refine ⟨fun s hL hR hl hr => ⟨_, exec_efxProc s, ?_⟩, fun hw i j hi hj h => modIndex_sub_ne _ hi hj h⟩
  have hstep := efxStepState_withCoefs theParams s.activeP.efx s.inL s.inR s.efx hl hr
  exact congrArg (fun e => Host.Outcome.next { s with efx := e }) hstep

/-! ### The phaser -/

/-- The stages that run are those below `PH_STAGES`. -/
theorem phaserStages_eq_filter (q : EfxP) :
    phaserStages q = (List.finRange 12).filter fun st => decide ((st.val : Int) < q.phStages.toInt) := by
  have htake : ∀ k : Fin 13,
      (List.finRange 12).take k.val = (List.finRange 12).filter fun st => decide (st.val < k.val) := by decide
  have hmin : (List.finRange 12).take (i64Of q.phStages).toNat = (List.finRange 12).take (min (i64Of q.phStages).toNat 12) := by
    rw [List.take_eq_take_iff, List.length_finRange]
    omega
  rw [phaserStages, hmin, htake ⟨min (i64Of q.phStages).toNat 12, by omega⟩]
  refine List.filter_congr fun st _ => decide_eq_decide.2 ?_
  change st.val < min q.phStages.toInt.toNat 12 ↔ _
  omega

theorem mem_phaserStages {q : EfxP} {st : Fin 12} : st ∈ phaserStages q ↔ (st.val : Int) < q.phStages.toInt := by
  rw [phaserStages_eq_filter, List.mem_filter]
  simp

/-- A stage at or above `PH_STAGES` keeps its memories (44_effect_filters.md R337). -/
theorem phaserChannel_kept {q : EfxP} {st : Fin 12} (h : q.phStages.toInt ≤ st.val) (a x : F64) (m : PhaserMem) :
    (phaserChannel q a x m).2.ax[st] = m.ax[st] ∧ (phaserChannel q a x m).2.ay[st] = m.ay[st] := by
  refine phaserChannel_induct q a x m (fun n => n.ax[st] = m.ax[st] ∧ n.ay[st] = m.ay[st]) (fun r st' hst' hr => ?_)
    ⟨rfl, rfl⟩
  have hne : st'.val ≠ st.val := by
    have := mem_phaserStages.1 hst'
    omega
  obtain ⟨hax, hay⟩ := hr
  constructor
  · exact (Vector.getElem_set_ne st'.isLt st.isLt hne).trans hax
  · exact (Vector.getElem_set_ne st'.isLt st.isLt hne).trans hay

/-- Settles O43: the stages that run are those the rule's condition lets through, and no stage writes another's memories. -/
theorem phaser : Obligations.Phaser := by
  refine ⟨?step, ?kept⟩
  case step =>
    intro s hmode q sweep t a channel l r
    have hcoef : phaserCoef theParams q s.efx.phLfo = a := by
      have ht : t = tptG theParams (warpLimit sweep theParams.fs) theParams.fs := by
        rw [← ruleWarp_eq]
        rfl
      simp only [a, ht]
      rfl
    have hchannel (x : F64) (m : PhaserMem) :
        phaserChannel q a x m = ((channel x m).1, { (channel x m).2 with fb := (channel x m).1 }) := by
      unfold phaserChannel
      rw [phaserStages_eq_filter, List.foldl_filter]
      simp only [decide_eq_true_eq]
      rfl
    have hwet : efxPhaser theParams q s.inL s.inR s.efx =
        ⟨l.1, r.1,
          { s.efx with
            phCoef := a
            phL := { l.2 with fb := l.1 }
            phR := { r.2 with fb := r.1 }
            phLfo := frac (fadd s.efx.phLfo (fdiv q.phRate theParams.fs)) }⟩ := by
      simp only [efxPhaser, hcoef, hchannel]
      rfl
    rw [exec_efxProc, efxStep, efxStepState_phaser (q := q) _ _ _ hmode, hwet]
    rfl
  case kept =>
    intro s st hmode hst
    refine ⟨_, exec_efxProc s, ?_⟩
    rw [efxStep_efx, efxStepState_phaser _ _ _ hmode]
    obtain ⟨hlx, hly⟩ := phaserChannel_kept hst (phaserCoef theParams s.activeP.efx s.efx.phLfo) s.inL s.efx.phL
    obtain ⟨hrx, hry⟩ := phaserChannel_kept hst (phaserCoef theParams s.activeP.efx s.efx.phLfo) s.inR s.efx.phR
    exact ⟨hlx, hly, hrx, hry⟩

/-! ### The impulse response -/

/-- The elements of the taps from `i` on: tap `i + k` is drawn `k + 1` draws after the state before them. -/
theorem memRead_irTaps (P : Params) (damp : F64) (len remaining i k : Nat) (x : U32) :
    memRead (irTaps P damp len remaining i x) (i + k) =
      if k < remaining then irTap P damp len (i + k) (xorshift^[k + 1] x) else f0 := by
  induction remaining generalizing i k x with
  | zero => rfl
  | succ n ih =>
    have hwf : memWfFrom (i + 1) (i + 1 + n) (irTaps P damp len n (i + 1) (xorshift x)) = true :=
      memWfFrom_irTaps P damp len _ n (i + 1) _ le_rfl
    rw [irTaps, memRead_memCons hwf (Nat.lt_succ_self i)]
    cases k with
    | zero => simp
    | succ k =>
      rw [if_neg (by omega), show i + (k + 1) = i + 1 + k by omega, ih, ← Function.iterate_succ_apply xorshift (k + 1)]
      simp only [Nat.add_lt_add_iff_right]

/-- A generated coefficient memory, every element. -/
theorem memRead_impulseResponse (P : Params) (decay damp : F64) (seed : U32) (i : Nat) :
    memRead (impulseResponse P decay damp seed) i =
      if i < irLength P decay then irTap P damp (irLength P decay) i (xorshift^[i + 1] seed) else f0 := by
  have h := memRead_irTaps P damp (irLength P decay) (irLength P decay) 0 i seed
  rwa [Nat.zero_add] at h

/-- Settles O44: the generation's memories element by element, and its length word as the rule clamps it. -/
theorem impulseResponse_eq_rule : Obligations.ImpulseResponse := by
  intro s q len tapOf lens
  have hlen : (irLength theParams q.revDecay : Int) = len := natCast_irLength _ _ one_le_maxFir
  have hlens (b : PBank) : b.withFirLen (firLenWord (irLength theParams q.revDecay)) = lens b := by
    rw [firLenWord_eq, hlen]
    rfl
  have htap (seed : U32) (i : Nat) :
      memRead (impulseResponse theParams q.revDecay q.revDamp seed) i = if (i : Int) < len then tapOf seed i else f0 := by
    rw [memRead_impulseResponse]
    simp only [← Int.ofNat_lt, hlen, irTap]
    rfl
  refine ⟨generateIR theParams s, rfl, fun i => ⟨htap q.irSeedL i, htap q.irSeedR i⟩, ?_⟩
  rw [← hlens, ← hlens]
  rfl

end Sys2Proof.Machine

/-! PROOFS. `TICK`: it is the unit commands in the order of the path, what it leaves of each unit and of the memories, and that it
reads the active copies alone (40_host_commands.md R150 to R152, 10_state.md R30, 70_reset_and_hazards.md R417). -/

namespace Sys2Proof.Machine

/-! ### The stages of the path are the unit commands -/

theorem filterStage_pathFilter (s : State) (x : F64) :
    FilterStage s x (pathFilter theParams x s).l (pathFilter theParams x s).s := by
  obtain ⟨hen, h⟩ | ⟨hen, h⟩ := pathFilter_cases theParams x s
  · rw [h, FilterStage, if_pos hen]
    exact ⟨_, exec_filtProc _, rfl, rfl⟩
  · rw [h, FilterStage, if_neg (ne_true_of_eq_false hen)]
    exact ⟨rfl, rfl⟩

theorem pathFilter_r (s : State) (x : F64) : (pathFilter theParams x s).r = (pathFilter theParams x s).l := by
  obtain ⟨-, h⟩ | ⟨-, h⟩ := pathFilter_cases theParams x s <;> rw [h]

theorem delayStage_pathDelay (p : Path) :
    DelayStage p.s (p.l, p.r) ((pathDelay theParams p).l, (pathDelay theParams p).r) (pathDelay theParams p).s := by
  obtain ⟨hen, h⟩ | ⟨hen, h⟩ := pathDelay_cases theParams p
  · rw [h, DelayStage, if_pos hen]
    exact ⟨_, exec_dlyProc _, rfl, rfl⟩
  · rw [h, DelayStage, if_neg (ne_true_of_eq_false hen)]
    exact ⟨rfl, rfl⟩

theorem effectStage_pathEffect (p : Path) :
    EffectStage p.s (p.l, p.r) ((pathEffect theParams p).l, (pathEffect theParams p).r) (pathEffect theParams p).s := by
  obtain ⟨hen, h⟩ | ⟨hen, h⟩ := pathEffect_cases theParams p
  · rw [h, EffectStage, if_pos hen]
    exact ⟨_, exec_efxProc _, rfl, rfl⟩
  · rw [h, EffectStage, if_neg (ne_true_of_eq_false hen)]
    exact ⟨rfl, rfl⟩

/-- The two effects in the order that `CHAIN_ORDER` gives. -/
theorem effectStages_pathEffects (p : Path) :
    ∃ (g : State) (x : F64 × F64),
      let q := pathEffects theParams p
      if p.s.activeP.ctrl.chainOrder = false then DelayStage p.s (p.l, p.r) x g ∧ EffectStage g x (q.l, q.r) q.s
      else EffectStage p.s (p.l, p.r) x g ∧ DelayStage g x (q.l, q.r) q.s := by
  unfold pathEffects
  cases p.s.activeP.ctrl.chainOrder with
  | false => exact ⟨_, _, delayStage_pathDelay p, effectStage_pathEffect (pathDelay theParams p)⟩
  | true => exact ⟨_, _, effectStage_pathEffect p, delayStage_pathDelay (pathEffect theParams p)⟩

theorem pathFilter_activeP (P : Params) (v : F64) (s : State) : (pathFilter P v s).s.activeP = s.activeP := by
  have h := congrArg State.activeP (pathFilter_outside P v s)
  exact h

theorem pathFilter_activeM (P : Params) (v : F64) (s : State) : (pathFilter P v s).s.activeM = s.activeM := by
  have h := congrArg State.activeM (pathFilter_outside P v s)
  exact h

theorem pathEffects_activeM (P : Params) (p : Path) : (pathEffects P p).s.activeM = p.s.activeM := by
  have h := congrArg State.activeM (pathEffects_outside P p)
  exact h

/-- The tick with its gain and its count as those of the state before it. -/
theorem tickState_eq (P : Params) (s : State) :
    tickState P s =
      let t := stepOscillators P s
      let p := pathEffects P (pathFilter P (mixOscillators t) { t with oscMix := mixOscillators t })
      { p.s with
        outL := fmul p.l s.activeM.amp
        outR := fmul p.r s.activeM.amp
        tickCount := s.tickCount + 1 } := by
  unfold tickState
  simp only [pathEffects_activeM, pathFilter_activeM, stepOscillators_activeM, pathEffects_tickCount, pathFilter_tickCount,
    stepOscillators_tickCount]

/-- Settles O46: each stage of the tick is the unit command on the sample passed on, in the order that `CHAIN_ORDER` gives. -/
theorem tickIsThePath : Obligations.TickIsThePath := by
  intro s
  have hactive := stepOscillators_activeP theParams s
  have hfilter := filterStage_pathFilter
    { stepOscillators theParams s with oscMix := mixOscillators (stepOscillators theParams s) }
    (mixOscillators (stepOscillators theParams s))
  have hequal := pathFilter_r
    { stepOscillators theParams s with oscMix := mixOscillators (stepOscillators theParams s) }
    (mixOscillators (stepOscillators theParams s))
  have hchain := pathFilter_activeP theParams (mixOscillators (stepOscillators theParams s))
    { stepOscillators theParams s with oscMix := mixOscillators (stepOscillators theParams s) }
  have htick := (exec_tick s).trans (congrArg _ (tickState_eq theParams s))
  dsimp only at htick
  generalize pathFilter theParams _ _ = f at hfilter hequal hchain htick
  obtain ⟨g, x, heffects⟩ := effectStages_pathEffects f
  rw [hequal, hchain] at heffects
  refine ⟨_, _, _, _, f.s, g, (pathEffects theParams f).s, _, f.l, x, (_, _), exec_oscStep 0 s, exec_oscStep 1 _,
    exec_oscStep 2 _, exec_oscStep 3 _, hfilter, ?_, htick, rfl⟩
  dsimp only at heffects
  rw [hactive] at heffects
  exact heffects

/-! ### What a tick leaves of each unit -/

section
variable (P : Params)

theorem pathFilter_state (v : F64) (s : State) :
    (pathFilter P v s).s =
      { s with filt := if s.activeP.ctrl.filtEn then filtStepState P s.activeP.filt s.activeM v s.filt else s.filt } := by
  obtain ⟨hen, h⟩ | ⟨hen, h⟩ := pathFilter_cases P v s <;> simp only [h, hen] <;> rfl

theorem pathDelay_state (p : Path) :
    (pathDelay P p).s =
      { p.s with
        dly := if p.s.activeP.ctrl.dlyEn then
            dlyStepState P p.s.activeP.dly p.s.activeP.bpm p.s.activeP.ctrl.analogEn p.l p.r p.s.dly
          else p.s.dly } := by
  obtain ⟨hen, h⟩ | ⟨hen, h⟩ := pathDelay_cases P p <;> simp only [h, hen] <;> rfl

theorem pathEffect_state (p : Path) :
    (pathEffect P p).s =
      { p.s with
        efx := if p.s.activeP.ctrl.efxEn then efxStepState P p.s.activeP.efx p.l p.r p.s.efx else p.s.efx } := by
  obtain ⟨hen, h⟩ | ⟨hen, h⟩ := pathEffect_cases P p <;> simp only [h, hen] <;> rfl

/-- The two effects, each on some pair, in either order. -/
theorem pathEffects_state (p : Path) :
    ∃ x y : F64 × F64, (pathEffects P p).s =
      { p.s with
        dly := if p.s.activeP.ctrl.dlyEn then
            dlyStepState P p.s.activeP.dly p.s.activeP.bpm p.s.activeP.ctrl.analogEn x.1 x.2 p.s.dly
          else p.s.dly
        efx := if p.s.activeP.ctrl.efxEn then efxStepState P p.s.activeP.efx y.1 y.2 p.s.efx else p.s.efx } := by
  unfold pathEffects
  split
  · refine ⟨((pathEffect P p).l, (pathEffect P p).r), (p.l, p.r), ?_⟩
    rw [pathDelay_state, pathEffect_state]
  · refine ⟨(p.l, p.r), ((pathDelay P p).l, (pathDelay P p).r), ?_⟩
    rw [pathEffect_state, pathDelay_state]

/-- What the tick leaves of the channels and the units, on some inputs. -/
theorem tickState_units (s : State) :
    (tickState P s).osc = (stepOscillators P s).osc ∧
      (∃ v, (tickState P s).filt =
        if s.activeP.ctrl.filtEn then filtStepState P s.activeP.filt s.activeM v s.filt else s.filt) ∧
      (∃ l r, (tickState P s).dly =
        if s.activeP.ctrl.dlyEn then
          dlyStepState P s.activeP.dly s.activeP.bpm s.activeP.ctrl.analogEn l r s.dly
        else s.dly) ∧
      ∃ l r, (tickState P s).efx =
        if s.activeP.ctrl.efxEn then efxStepState P s.activeP.efx l r s.efx else s.efx := by
  let o := stepOscillators P s
  let mix := mixOscillators o
  let f := pathFilter P mix { o with oscMix := mix }
  have hf : f.s = _ := pathFilter_state P mix { o with oscMix := mix }
  obtain ⟨x, y, h⟩ := pathEffects_state P f
  rw [hf] at h
  exact ⟨(congrArg State.osc h :), ⟨mix, (congrArg State.filt h :)⟩, ⟨x.1, x.2, (congrArg State.dly h :)⟩, y.1, y.2,
    (congrArg State.efx h :)⟩

/-- Each channel is stepped once, after the channels before it. -/
theorem stepOscillators_osc (s : State) (c : Chan) :
    ∃ prev, (stepOscillators P s).osc[c] = oscStepState P s.activeP.osc[c] s.activeM.modIn[c] prev s.osc[c] := by
  have hsame (c : Chan) (u : State) : (oscStep P c u).osc[c] = _ := setOsc_get_same c _ u
  have hother {c d : Chan} (h : c ≠ d) (u : State) : (oscStep P c u).osc[d] = u.osc[d] := setOsc_get_other h _ u
  unfold stepOscillators
  match c with
  | 0 =>
    rw [hother (by decide), hother (by decide), hother (by decide), hsame]
    exact ⟨_, rfl⟩
  | 1 =>
    rw [hother (by decide), hother (by decide), hsame, hother (by decide)]
    exact ⟨_, rfl⟩
  | 2 =>
    rw [hother (by decide), hsame, hother (by decide), hother (by decide)]
    exact ⟨_, rfl⟩
  | 3 =>
    rw [hsame, hother (by decide), hother (by decide), hother (by decide)]
    exact ⟨_, rfl⟩

end

/-- A topology other than the comb keeps the comb line. -/
theorem filtStepState_cline {P : Params} {p : FiltP} (h : p.ctrl.topo ≠ .comb) (mb : MBank) (x : F64) (f : FiltState) :
    (filtStepState P p mb x f).cline = f.cline := by
  refine filtStepState_induct (fun g => g.cline = f.cline) (fun c u r g hg => ?_) (fun _ _ _ => id) mb x rfl
  obtain ⟨-, -, -, -, -, -, hframe⟩ := topoStep_frame P p c u r g
  exact (hframe h).2.2.trans hg

/-- A history keeps every element but the one at the index. -/
theorem memRead_efxStepState_hist {P : Params} {st : EfxState} (h : st.MemoryOk P) (q : EfxP) (l r : F64) {i : Nat}
    (hi : i ≠ st.hw) :
    memRead (efxStepState P q l r st).histL i = memRead st.histL i ∧
      memRead (efxStepState P q l r st).histR i = memRead st.histR i := by
  by_cases hmode : q.ctrl.mode = .fir
  · rw [efxStepState_fir _ _ _ hmode]
    exact ⟨memRead_memWrite_other h.histL hi _, memRead_memWrite_other h.histR hi _⟩
  · obtain ⟨-, -, -, -, -, hfir⟩ := efxStepState_frame l r st P q
    obtain ⟨-, hL, hR⟩ := hfir hmode
    rw [hL, hR]
    exact ⟨rfl, rfl⟩

/-- Settles O47, from what the tick leaves of each unit and each unit's own frame. -/
theorem tickFrame : Obligations.TickFrame := by
  intro s hs
  obtain ⟨hfilt, hdly, hefx⟩ := memoriesOk_iff.1 hs
  obtain ⟨tosc, ⟨v, tfilt⟩, ⟨dl, dr, tdly⟩, el, er, tefx⟩ := tickState_units theParams s
  refine ⟨_, exec_tick s, eq_of_outside_eq (tickState_outside theParams s), fun c hc => ?osc, fun h => ?filt, fun h => ?dly,
    fun h => ?efx, fun i => ?coefs, fun i hi => ?lines, fun i hi => ?hist, fun i hi => ?comb⟩
  case osc =>
    obtain ⟨prev, hstep⟩ := stepOscillators_osc theParams s c
    rw [tosc, hstep, oscStepState_disabled hc]
  case filt => rw [tfilt, h]; rfl
  case dly => rw [tdly, h]; rfl
  case efx => rw [tefx, h]; rfl
  case coefs =>
    change memRead (tickState theParams s).efx.hL i = memRead s.efx.hL i ∧
      memRead (tickState theParams s).efx.hR i = memRead s.efx.hR i
    rw [tefx]
    split
    · obtain ⟨hL, hR, -⟩ := efxStepState_frame el er s.efx theParams s.activeP.efx
      rw [hL, hR]
      exact ⟨rfl, rfl⟩
    · exact ⟨rfl, rfl⟩
  case lines =>
    change memRead (tickState theParams s).dly.bufL i = memRead s.dly.bufL i ∧
      memRead (tickState theParams s).dly.bufR i = memRead s.dly.bufR i
    rw [tdly]
    split
    · exact ⟨memRead_memWrite_other hdly.bufL hi _, memRead_memWrite_other hdly.bufR hi _⟩
    · exact ⟨rfl, rfl⟩
  case hist =>
    change memRead (tickState theParams s).efx.histL i = memRead s.efx.histL i ∧
      memRead (tickState theParams s).efx.histR i = memRead s.efx.histR i
    rw [tefx]
    split
    · exact memRead_efxStepState_hist hefx _ el er hi
    · exact ⟨rfl, rfl⟩
  case comb =>
    change memRead (tickState theParams s).filt.cline i = memRead s.filt.cline i
    rw [tfilt]
    split
    · by_cases htopo : s.activeP.filt.ctrl.topo = .comb
      · exact (combAfter_filtStepState htopo one_le_maxComb s.activeM v hfilt).kept i hi
      · rw [filtStepState_cline htopo]
    · rfl

/-! ### Sound processing reads no shadow copy -/

/-- A state with the given sound part. -/
def Sound.state (a : Sound) : State where
  shadowP := a.activeP
  activeP := a.activeP
  shadowM := a.activeM
  activeM := a.activeM
  inL := f0
  inR := f0
  filtIn := f0
  firAddr := 0
  status := 0
  tickCount := a.tickCount
  outL := a.outL
  outR := a.outR
  oscMix := a.oscMix
  osc := a.osc
  filt := a.filt
  dly := a.dly
  efx := a.efx
  port := ⟨[], []⟩

/-- An operation whose sound part is that of the operation on a state with the sound part alone reads nothing else. -/
theorem sound_congr {f : State → State} (h : ∀ s, (f s).sound = (f s.sound.state).sound) {s u : State}
    (hsu : s.sound = u.sound) : (f s).sound = (f u).sound := by rw [h s, h u, hsu]

section
variable (P : Params) {s u : State} (h : s.sound = u.sound)
include h

theorem oscStep_sound (c : Chan) : (oscStep P c s).sound = (oscStep P c u).sound := sound_congr (f := oscStep P c) (fun _ => rfl) h

theorem filtStep_sound (x : F64) : (filtStep P x s).sound = (filtStep P x u).sound :=
  sound_congr (f := filtStep P x) (fun _ => rfl) h

theorem dlyStep_sound (l r : F64) : (dlyStep P l r s).sound = (dlyStep P l r u).sound :=
  sound_congr (f := dlyStep P l r) (fun _ => rfl) h

theorem efxStep_sound (l r : F64) : (efxStep P l r s).sound = (efxStep P l r u).sound :=
  sound_congr (f := efxStep P l r) (fun _ => rfl) h

theorem stepOscillators_sound : (stepOscillators P s).sound = (stepOscillators P u).sound :=
  oscStep_sound P (oscStep_sound P (oscStep_sound P (oscStep_sound P h 0) 1) 2) 3

theorem mixOscillators_sound : mixOscillators s = mixOscillators u := by
  have hmix (s : State) : mixOscillators s = mixOscillators s.sound.state := rfl
  rw [hmix s, hmix u, h]

end

/-- A sample on its way with the sound part of the state. -/
def Path.sound (p : Path) : F64 × F64 × Sound := (p.l, p.r, p.s.sound)

/-- The stages of the path, likewise. -/
theorem pathFilter_sound (P : Params) (v : F64) {s u : State} (h : s.sound = u.sound) :
    (pathFilter P v s).sound = (pathFilter P v u).sound := by
  have hstage (s : State) : (pathFilter P v s).sound = (pathFilter P v s.sound.state).sound := by
    unfold pathFilter
    rw [apply_ite Path.sound, apply_ite Path.sound]
    rfl
  rw [hstage s, hstage u, h]

theorem pathDelay_sound (P : Params) {p p' : Path} (h : p.sound = p'.sound) :
    (pathDelay P p).sound = (pathDelay P p').sound := by
  have hstage (p : Path) :
      (pathDelay P p).sound = (pathDelay P ⟨p.sound.1, p.sound.2.1, p.sound.2.2.state⟩).sound := by
    unfold pathDelay
    rw [apply_ite Path.sound, apply_ite Path.sound]
    rfl
  rw [hstage p, hstage p', h]

theorem pathEffect_sound (P : Params) {p p' : Path} (h : p.sound = p'.sound) :
    (pathEffect P p).sound = (pathEffect P p').sound := by
  have hstage (p : Path) :
      (pathEffect P p).sound = (pathEffect P ⟨p.sound.1, p.sound.2.1, p.sound.2.2.state⟩).sound := by
    unfold pathEffect
    rw [apply_ite Path.sound, apply_ite Path.sound]
    rfl
  rw [hstage p, hstage p', h]

theorem pathEffects_sound (P : Params) {p p' : Path} (h : p.sound = p'.sound) :
    (pathEffects P p).sound = (pathEffects P p').sound := by
  have horder : p.s.activeP.ctrl.chainOrder = p'.s.activeP.ctrl.chainOrder :=
    congrArg (fun x : F64 × F64 × Sound => x.2.2.activeP.ctrl.chainOrder) h
  unfold pathEffects
  rw [horder]
  split
  · exact pathDelay_sound P (pathEffect_sound P h)
  · exact pathEffect_sound P (pathDelay_sound P h)

theorem tickState_sound (P : Params) {s u : State} (h : s.sound = u.sound) :
    (tickState P s).sound = (tickState P u).sound := by
  have hosc := stepOscillators_sound P h
  have hmix := mixOscillators_sound hosc
  have hmixed : ({ stepOscillators P s with oscMix := mixOscillators (stepOscillators P s) } : State).sound =
      ({ stepOscillators P u with oscMix := mixOscillators (stepOscillators P u) } : State).sound := by
    rw [hmix]
    exact congrArg (fun a : Sound => { a with oscMix := mixOscillators (stepOscillators P u) }) hosc
  have hpath := pathEffects_sound P (pathFilter_sound P (mixOscillators (stepOscillators P s)) hmixed)
  unfold tickState
  dsimp only
  rw [← hmix] at hpath ⊢
  exact congrArg (fun x : F64 × F64 × Sound => { x.2.2 with
    outL := fmul x.1 x.2.2.activeM.amp
    outR := fmul x.2.1 x.2.2.activeM.amp
    tickCount := x.2.2.tickCount + 1 }) hpath

/-- Settles O49: each operation's sound part is a function of the sound part and its inputs. -/
theorem soundReadsActiveCopies : Obligations.SoundReadsActiveCopies := by
  intro s u h
  refine ⟨⟨_, _, exec_tick s, exec_tick u, tickState_sound theParams h⟩,
    fun c => ⟨_, _, exec_oscStep c s, exec_oscStep c u, oscStep_sound theParams h c⟩,
    fun hin => ⟨_, _, exec_filtProc s, exec_filtProc u, ?_⟩,
    fun hl hr => ⟨⟨_, _, exec_dlyProc s, exec_dlyProc u, ?_⟩, ⟨_, _, exec_efxProc s, exec_efxProc u, ?_⟩⟩⟩
  · rw [hin]
    exact filtStep_sound theParams h _
  · rw [hl, hr]
    exact dlyStep_sound theParams h _ _
  · rw [hl, hr]
    exact efxStep_sound theParams h _ _

end Sys2Proof.Machine

/-! PROOFS. Addition, subtraction, multiplication and division are correctly rounded: the rounded significand is the integer
nearest to the number over its spacing, ties to even, no finite value off that spacing is nearer, and the carry past the
greatest exponent is the overflow (00_scope.md R14, R17). -/

namespace Sys2Proof.Machine

/-! ### A number on its spacing -/

/-- `2 ^ q` is the spacing of the finite values of the size of `v`, and `r` the multiple of it nearest to `v`, ties to even. -/
structure RoundsAt (v : ℚ) (q : Int) (r : Nat) : Prop where
  ge : -1074 ≤ q
  lt : v < 2 ^ 53 * 2 ^ q
  full : -1074 < q → 2 ^ 52 * 2 ^ q ≤ v
  low : (r : ℚ) * 2 ^ q ≤ v + 2 ^ q / 2
  high : v ≤ r * 2 ^ q + 2 ^ q / 2
  even : (r : ℚ) * 2 ^ q = v + 2 ^ q / 2 ∨ v = r * 2 ^ q + 2 ^ q / 2 → r % 2 = 0

/-- Half a unit to either side, and in the middle the even one. -/
theorem roundShift_near (m k : Nat) :
    2 * (roundShift m k * 2 ^ k) ≤ 2 * m + 2 ^ k ∧ 2 * m ≤ 2 * (roundShift m k * 2 ^ k) + 2 ^ k ∧
      (2 * (roundShift m k * 2 ^ k) = 2 * m + 2 ^ k ∨ 2 * m = 2 * (roundShift m k * 2 ^ k) + 2 ^ k →
        roundShift m k % 2 = 0) := by
  have hmod : m % 2 ^ k < 2 ^ k := Nat.mod_lt _ (Nat.two_pow_pos k)
  have hdiv : m / 2 ^ k * 2 ^ k + m % 2 ^ k = m := Nat.div_add_mod' m _
  unfold roundShift
  dsimp only
  generalize 2 ^ k = u at *
  have hsucc : (m / u + 1) * u = m / u * u + u := Nat.succ_mul _ _
  split_ifs <;> omega

/-- The same of the rounded significand: nothing is rounded away where the spacing divides the number. -/
theorem roundedSignificand_near (m : Nat) (e : Int) :
    let R := (roundedSignificand m e : ℚ) * 2 ^ quantum m e
    let half := (2 : ℚ) ^ quantum m e / 2
    R ≤ (m : ℚ) * 2 ^ e + half ∧ (m : ℚ) * 2 ^ e ≤ R + half ∧
      (R = (m : ℚ) * 2 ^ e + half ∨ (m : ℚ) * 2 ^ e = R + half → roundedSignificand m e % 2 = 0) := by
  intro R half
  have hhalf : 0 < half := div_pos (zpow_pos two_pos _) two_pos
  obtain hq | hq := le_or_gt (quantum m e) e
  · have hexact : R = (m : ℚ) * 2 ^ e := by
      change (roundedSignificand m e : ℚ) * 2 ^ quantum m e = _
      rw [mul_zpow_eq_of_le m hq, roundedSignificand, if_pos hq]
    rw [hexact]
    refine ⟨by linarith, by linarith, ?_⟩
    rintro (h | h) <;> linarith
  · have hunit : (0 : ℚ) < 2 ^ e := zpow_pos two_pos e
    have hspacing : (2 : ℚ) ^ quantum m e = ((2 ^ (quantum m e - e).toNat : Nat) : ℚ) * 2 ^ e := by
      simpa using mul_zpow_eq_of_le 1 hq.le
    have hsig : roundedSignificand m e = roundShift m (quantum m e - e).toNat := if_neg hq.not_ge
    obtain ⟨hlow, hhigh, heven⟩ := roundShift_near m (quantum m e - e).toNat
    simp only [R, half, hspacing, ← hsig] at hlow hhigh heven ⊢
    generalize roundedSignificand m e = r at *
    generalize 2 ^ (quantum m e - e).toNat = u at *
    generalize (2 : ℚ) ^ e = t at *
    have hlow' : (2 * (r * u) : ℚ) ≤ 2 * m + u := by exact_mod_cast hlow
    have hhigh' : (2 * m : ℚ) ≤ 2 * (r * u) + u := by exact_mod_cast hhigh
    refine ⟨by nlinarith, by nlinarith, fun h => heven (h.imp (fun h => ?_) fun h => ?_)⟩
    · have := mul_right_cancel₀ (b := t) hunit.ne' (a := (2 * (r * u) : ℚ)) (c := 2 * m + u) (by linarith)
      exact_mod_cast this
    · have := mul_right_cancel₀ (b := t) hunit.ne' (a := (2 * m : ℚ)) (c := 2 * (r * u) + u) (by linarith)
      exact_mod_cast this

/-- The rounded significand of a dyadic number. -/
theorem roundsAt_dyadic {m : Nat} (hm : m ≠ 0) (e : Int) :
    RoundsAt ((m : ℚ) * 2 ^ e) (quantum m e) (roundedSignificand m e) := by
  obtain ⟨hlow, hhigh, heven⟩ := roundedSignificand_near m e
  exact ⟨quantum_ge m e, by exact_mod_cast lt_quantum e, fun h => by exact_mod_cast quantum_le hm h, hlow, hhigh, heven⟩

section
variable {v : ℚ} {q : Int} {r : Nat} (h : RoundsAt v q r)
include h

theorem RoundsAt.le : r ≤ 2 ^ 53 := by
  have hs : (0 : ℚ) < 2 ^ q := zpow_pos two_pos q
  have hlt : (r : ℚ) < (2 ^ 53 + 1 : Nat) := by
    refine lt_of_mul_lt_mul_right ?_ hs.le
    push_cast
    linarith [h.lt, h.low]
  exact Nat.lt_succ_iff.1 (by exact_mod_cast hlt)

theorem RoundsAt.two_pow_le (hq : -1074 < q) : 2 ^ 52 ≤ r := by
  have hs : (0 : ℚ) < 2 ^ q := zpow_pos two_pos q
  have hlt : ((2 ^ 52 : Nat) : ℚ) < (r + 1 : Nat) := by
    refine lt_of_mul_lt_mul_right ?_ hs.le
    push_cast
    linarith [h.full hq, h.high]
  exact Nat.lt_succ_iff.1 (by exact_mod_cast hlt)

/-- The rounding passes the greatest finite value just where the number reaches the middle above it: there the significand
is odd, so that the tie goes up. -/
theorem RoundsAt.lt_overflowBound_iff : v < overflowBound ↔ (r : ℚ) * 2 ^ q < 2 ^ 1024 := by
  have hr : (r : ℚ) ≤ 2 ^ 53 := by exact_mod_cast h.le
  have h970 : (2 : ℚ) ^ (970 : Int) = 2 ^ 970 := zpow_natCast 2 970
  have h971 : (2 : ℚ) ^ (971 : Int) = 2 * 2 ^ 970 := (zpow_natCast 2 971).trans (pow_succ' 2 970)
  have h972 : (2 : ℚ) ^ (972 : Int) = 2 * (2 * 2 ^ 970) := (zpow_natCast 2 972).trans (by rw [← pow_succ', ← pow_succ'])
  have htop : (2 : ℚ) ^ 1024 = 2 ^ 53 * (2 * 2 ^ 970) := by rw [← pow_succ', ← pow_add]
  have hpos : (0 : ℚ) < 2 ^ 970 := pow_pos two_pos 970
  rw [overflowBound, htop]
  clear htop
  obtain hq | rfl | hq := lt_trichotomy q 971
  · have hs : (2 : ℚ) ^ q ≤ 2 ^ (970 : Int) := zpow_le_zpow_right₀ one_le_two (by omega)
    have hR : (r : ℚ) * 2 ^ q ≤ 2 ^ 53 * 2 ^ (970 : Int) := by gcongr
    have hv : v < 2 ^ 53 * 2 ^ (970 : Int) := h.lt.trans_le (by gcongr)
    clear hs
    rw [h970] at hR hv
    clear h970 h971 h972
    generalize (2 : ℚ) ^ 970 = s at *
    exact iff_of_true (by linarith) (by linarith)
  · obtain ⟨-, -, -, hlow, hhigh, heven⟩ := h
    rw [h971] at hlow hhigh heven ⊢
    clear h970 h971 h972
    generalize (2 : ℚ) ^ 970 = s at *
    refine ⟨fun hv => by linarith, fun hR => ?_⟩
    have hlt : r < 2 ^ 53 := by
      have := lt_of_mul_lt_mul_right hR (by linarith)
      exact_mod_cast this
    obtain hlt | rfl := (Nat.le_sub_one_of_lt hlt).lt_or_eq
    · have hcast : (r : ℚ) + 2 ≤ 2 ^ 53 := by
        have : r + 2 ≤ 2 ^ 53 := by omega
        exact_mod_cast this
      nlinarith
    · norm_num at hhigh heven
      refine lt_of_le_of_ne (by linarith) fun hv => heven.2 (by linarith)
  · have hs : (2 : ℚ) ^ (972 : Int) ≤ 2 ^ q := zpow_le_zpow_right₀ one_le_two (by omega)
    have hr' : (2 : ℚ) ^ 52 ≤ r := by exact_mod_cast h.two_pow_le (by omega)
    have hR : (2 : ℚ) ^ 52 * 2 ^ (972 : Int) ≤ r * 2 ^ q :=
      mul_le_mul hr' hs (zpow_pos two_pos _).le (Nat.cast_nonneg r)
    have hv : (2 : ℚ) ^ 52 * 2 ^ (972 : Int) ≤ v :=
      (mul_le_mul_of_nonneg_left hs (by positivity)).trans (h.full (by omega))
    clear hs
    rw [h972] at hR hv
    clear h970 h971 h972
    generalize (2 : ℚ) ^ 970 = s at *
    exact iff_of_false (by linarith) (by linarith)

/-- No finite value is nearer, and one as near is reached from an even significand only: it is on the same spacing, or below
every number of that spacing. -/
theorem RoundsAt.nearest {N : Int} {w : ℚ} (hw : Codes N w) :
    |(r : ℚ) * 2 ^ q - v| ≤ |w - v| ∧ (w ≠ r * 2 ^ q → |w - v| = |(r : ℚ) * 2 ^ q - v| → r % 2 = 0) := by
  have hs : (0 : ℚ) < 2 ^ q := zpow_pos two_pos q
  have hlow := h.low
  have hhigh := h.high
  have heven := h.even
  have hnear : |(r : ℚ) * 2 ^ q - v| ≤ 2 ^ q / 2 := abs_le.2 ⟨by linarith, by linarith⟩
  obtain ⟨p, k, hp, hk, -, -, rfl⟩ := hw
  obtain hle | hlt := le_or_gt q p
  · rw [mul_zpow_eq_of_le k hle]
    generalize k * 2 ^ (p - q).toNat = n
    obtain hn | rfl | hn := lt_trichotomy n r
    · have hcast : (n : ℚ) + 1 ≤ r := by exact_mod_cast hn
      have hgap : (n : ℚ) * 2 ^ q + 2 ^ q ≤ r * 2 ^ q := by nlinarith
      rw [abs_of_neg (a := (n : ℚ) * 2 ^ q - v) (by linarith)]
      refine ⟨by linarith, fun _ htie => heven (.inl ?_)⟩
      have := (abs_le.1 htie.ge).2
      linarith
    · exact ⟨le_rfl, fun hne => absurd rfl hne⟩
    · have hcast : (r : ℚ) + 1 ≤ n := by exact_mod_cast hn
      have hgap : (r : ℚ) * 2 ^ q + 2 ^ q ≤ n * 2 ^ q := by nlinarith
      rw [abs_of_pos (a := (n : ℚ) * 2 ^ q - v) (by linarith)]
      refine ⟨by linarith, fun _ htie => heven (.inr ?_)⟩
      have := (abs_le.1 htie.ge).1
      linarith
  · have hbelow : (k : ℚ) * 2 ^ p < ((2 ^ 52 : Nat) : ℚ) * 2 ^ q := mul_zpow_lt_of_exponent_lt hk le_rfl hlt
    have hfull : ((2 ^ 52 : Nat) : ℚ) * 2 ^ q ≤ v := by exact_mod_cast h.full (hp.trans_lt hlt)
    have hstrict : |(r : ℚ) * 2 ^ q - v| < |(k : ℚ) * 2 ^ p - v| := by
      rw [abs_of_neg (a := (k : ℚ) * 2 ^ p - v) (by linarith), abs_lt]
      obtain heq | hgt := (h.two_pow_le (hp.trans_lt hlt)).eq_or_lt
      · rw [← heq] at hlow ⊢
        exact ⟨by linarith, by linarith⟩
      · have hcast : ((2 ^ 52 : Nat) : ℚ) + 1 ≤ r := by exact_mod_cast hgt
        have hgap : ((2 ^ 52 : Nat) : ℚ) * 2 ^ q + 2 ^ q ≤ r * 2 ^ q := by nlinarith
        exact ⟨by linarith, by linarith⟩
    exact ⟨hstrict.le, fun _ htie => absurd htie hstrict.ne'⟩

end

/-! ### From the magnitude to the signed value -/

/-- Against a value of the exact number's sign the distance is that of the magnitudes, against any other at least that. -/
theorem roundedTo_of_magnitude {exact : ℚ} {y : F64} (hy : isFinite y = true) (hexact : exact ≠ 0)
    (hsign : ratOf y = |ratOf y| ∧ exact = |exact| ∨ ratOf y = -|ratOf y| ∧ exact = -|exact|)
    (hnear : ∀ z, |(|ratOf y| - |exact|)| ≤ |(|ratOf z| - |exact|)| ∧
      (|ratOf z| ≠ |ratOf y| → |(|ratOf z| - |exact|)| = |(|ratOf y| - |exact|)| → significand y % 2 = 0)) :
    RoundedTo exact y := by
  have hdist (z : F64) : |(|ratOf z| - |exact|)| ≤ |ratOf z - exact| := abs_abs_sub_abs_le _ _
  have hsame : |ratOf y - exact| = |(|ratOf y| - |exact|)| := by
    obtain ⟨h1, h2⟩ | ⟨h1, h2⟩ := hsign
    · rw [← h1, ← h2]
    · rw [← abs_neg, show -(ratOf y - exact) = |ratOf y| - |exact| by linarith]
  have hopposite : |(-ratOf y) - exact| = |ratOf y| + |exact| := by
    have hsum : 0 ≤ |ratOf y| + |exact| := add_nonneg (abs_nonneg _) (abs_nonneg _)
    obtain ⟨h1, h2⟩ | ⟨h1, h2⟩ := hsign
    · rw [← abs_neg, show -(-ratOf y - exact) = |ratOf y| + |exact| by linarith, abs_of_nonneg hsum]
    · rw [show -ratOf y - exact = |ratOf y| + |exact| by linarith, abs_of_nonneg hsum]
  refine ⟨hy, fun z _ => hsame ▸ (hnear z).1.trans (hdist z), fun z _ hne htie => ?_⟩
  rw [hsame] at htie
  by_cases hmag : |ratOf z| = |ratOf y|
  · obtain heq | heq := abs_eq_abs.1 hmag
    · exact absurd heq hne
    · exfalso
      rw [heq, hopposite] at htie
      have hpos : 0 < |exact| := abs_pos.2 hexact
      have hzero : |ratOf y| = 0 := by
        have hnonneg := abs_nonneg (ratOf y)
        obtain h | h := abs_cases (|ratOf y| - |exact|) <;> linarith
      rw [abs_eq_zero] at hzero
      exact hne (by rw [heq, hzero, neg_zero])
  · exact (hnear z).2 hmag (le_antisymm (htie ▸ hdist z) (hnear z).1)

/-- A dyadic number rounded is the rounding of any number that has its spacing and its rounded significand. -/
theorem isRounding_roundDyadic {v : ℚ} {m : Nat} {e : Int} (hv : 0 < v) (hm : m ≠ 0)
    (h : RoundsAt v (quantum m e) (roundedSignificand m e)) (neg : Bool) :
    IsRounding (if neg then -v else v) (roundDyadic neg m e) := by
  have habs : |if neg then -v else v| = v := by cases neg <;> simp [abs_of_pos hv]
  unfold IsRounding
  rw [habs]
  split
  · next hlt =>
    obtain ⟨hfin, hval⟩ := isFinite_roundDyadic hm (h.lt_overflowBound_iff.1 hlt) neg
    have hcode := codes_roundedSignificand hm e
    have hmag : (magnitude (roundDyadic neg m e) : Int) = _ :=
      le_antisymm ((codes_magnitude _).le_iff hcode |>.1 hval.le) (hcode.le_iff (codes_magnitude _) |>.1 hval.ge)
    have hparity : significand (roundDyadic neg m e) % 2 = roundedSignificand m e % 2 := by
      have := magnitude_eq (roundDyadic neg m e)
      omega
    refine roundedTo_of_magnitude hfin (by cases neg <;> simp [hv.ne']) ?_ fun z => ?_
    · rw [habs]
      have hsign := ratOf_eq_abs (roundDyadic neg m e)
      rw [signBit_roundDyadic] at hsign
      cases neg
      · exact .inl ⟨hsign, rfl⟩
      · exact .inr ⟨hsign, rfl⟩
    · rw [habs, hval, hparity]
      exact h.nearest (codes_magnitude z)
  · next hlt =>
    rw [roundDyadic_overflow hm (not_lt.1 fun hR => hlt (h.lt_overflowBound_iff.2 hR))]
    cases neg <;> simp [hv, hv.not_gt]

/-- A zero of either sign is the rounding of 0. -/
theorem isRounding_signedZero (neg : Bool) : IsRounding 0 (signedZero neg) := by
  have hzero : ratOf (signedZero neg) = 0 := by
    rw [← abs_eq_zero, abs_ratOf_eq_zero_iff]
    exact magnitude_ofMagnitude (by decide)
  have hbound : |(0 : ℚ)| < overflowBound := by
    rw [abs_zero, overflowBound, sub_pos]
    exact pow_lt_pow_right₀ one_lt_two (by decide)
  have hfin : isFinite (signedZero neg) = true := by cases neg <;> decide
  rw [IsRounding, if_pos hbound]
  refine ⟨hfin, fun z _ => ?_, fun z _ hne htie => absurd ?_ hne⟩
  · rw [hzero, sub_zero, abs_zero]
    exact abs_nonneg _
  · rw [hzero, sub_zero, sub_zero, abs_zero, abs_eq_zero] at htie
    rw [htie, hzero]

/-! ### Addition, subtraction, multiplication -/

theorem isRounding_roundDyadic_exact {m : Nat} (hm : m ≠ 0) (e : Int) (neg : Bool) :
    IsRounding ((signedInt neg m : ℚ) * 2 ^ e) (roundDyadic neg m e) := by
  have hv : (0 : ℚ) < (m : ℚ) * 2 ^ e := mul_pos (Nat.cast_pos.2 (Nat.pos_of_ne_zero hm)) (zpow_pos two_pos e)
  have h := isRounding_roundDyadic hv hm (roundsAt_dyadic hm e) neg
  have hexact : (signedInt neg m : ℚ) * 2 ^ e = if neg then -((m : ℚ) * 2 ^ e) else (m : ℚ) * 2 ^ e := by
    unfold signedInt
    cases neg <;> simp
  rwa [hexact]

/-- A signed significand rounded, with a zero of either sign for 0. -/
theorem isRounding_roundSigned (n : Int) (e : Int) (zeroSign : Bool) :
    IsRounding ((n : ℚ) * 2 ^ e) (if n = 0 then signedZero zeroSign else roundDyadic (decide (n < 0)) n.natAbs e) := by
  split
  · next h =>
    rw [h, Int.cast_zero, zero_mul]
    exact isRounding_signedZero _
  · next h =>
    have hround := isRounding_roundDyadic_exact (Int.natAbs_ne_zero.2 h) e (decide (n < 0))
    rwa [signedInt_natAbs] at hround

theorem isRounding_addFinite (a b : F64) : IsRounding (ratOf a + ratOf b) (addFinite a b) := by
  rw [ratOf_eq_of_le (min_le_left (exponent a) (exponent b)), ratOf_eq_of_le (min_le_right (exponent a) (exponent b)),
    ← add_mul, ← Int.cast_add]
  exact isRounding_roundSigned _ _ _

theorem isRounding_fadd {a b : F64} (ha : isFinite a = true) (hb : isFinite b = true) :
    IsRounding (ratOf a + ratOf b) (fadd a b) := by
  have h : fadd a b = addFinite a b := by simp [fadd, addNumber, isNaN_of_isFinite, isInf_of_isFinite, ha, hb]
  exact h ▸ isRounding_addFinite a b

theorem isRounding_fsub {a b : F64} (ha : isFinite a = true) (hb : isFinite b = true) :
    IsRounding (ratOf a - ratOf b) (fsub a b) := by
  have h : fsub a b = addFinite a (flipSign b) := by
    simp [fsub, addNumber, isNaN_of_isFinite, isInf_of_isFinite, ha, hb]
  rw [h, sub_eq_add_neg, ← ratOf_flipSign]
  exact isRounding_addFinite a (flipSign b)

theorem isRounding_fmul {a b : F64} (ha : isFinite a = true) (hb : isFinite b = true) :
    IsRounding (ratOf a * ratOf b) (fmul a b) := by
  have h : fmul a b = roundDyadic (signBit a != signBit b) (significand a * significand b) (exponent a + exponent b) := by
    simp [fmul, isNaN_of_isFinite, isInf_of_isFinite, ha, hb]
  have hexact : ratOf a * ratOf b =
      (signedInt (signBit a != signBit b) (significand a * significand b) : ℚ) * 2 ^ (exponent a + exponent b) := by
    unfold ratOf
    rw [← signedInt_mul, zpow_add₀ two_ne_zero]
    push_cast
    ring
  rw [h, hexact]
  by_cases hm : significand a * significand b = 0
  · rw [hm, roundDyadic, if_pos rfl, show signedInt (signBit a != signBit b) 0 = 0 by
      cases signBit a <;> cases signBit b <;> rfl, Int.cast_zero, zero_mul]
    exact isRounding_signedZero _
  · exact isRounding_roundDyadic_exact hm _ _

/-- Settles O58: each of the three operations rounds a dyadic number. -/
theorem arithmeticRounds : Obligations.ArithmeticRounds :=
  fun _ _ ha hb => ⟨isRounding_fadd ha hb, isRounding_fsub ha hb, isRounding_fmul ha hb⟩

end Sys2Proof.Machine

/-! PROOFS. Division is correctly rounded as well: the quotient with its remainder bit is on the same side of every number that
the rounding compares with as the exact ratio (00_scope.md R14, R17). -/

namespace Sys2Proof.Machine

/-- Numbers on the same side of every multiple of a unit that divides half the spacing are rounded alike. -/
theorem RoundsAt.of_same_side {v v' u : ℚ} {q : Int} {r : Nat} (h : RoundsAt v' q r) (j : Nat) (hj : (2 : ℚ) ^ q / 2 = j * u)
    (hle : ∀ c : Int, v ≤ c * u ↔ v' ≤ c * u) (hge : ∀ c : Int, c * u ≤ v ↔ c * u ≤ v') : RoundsAt v q r := by
  have heq (c : Int) : v = c * u ↔ v' = c * u := by rw [le_antisymm_iff, hle, hge, ← le_antisymm_iff]
  have hspacing : (2 : ℚ) ^ q = 2 * j * u := by linarith
  obtain ⟨hq, hlt, hfull, hlow, hhigh, heven⟩ := h
  rw [hj] at hlow hhigh heven
  rw [hspacing] at hlt hfull hlow hhigh heven
  have hbelow : ((2 * j * r - j : Int) : ℚ) * u = r * (2 * j * u) - j * u := by push_cast; ring
  have habove : ((2 * j * r + j : Int) : ℚ) * u = r * (2 * j * u) + j * u := by push_cast; ring
  have htop : ((2 ^ 53 * (2 * j) : Int) : ℚ) * u = 2 ^ 53 * (2 * j * u) := by push_cast; ring
  have hbottom : ((2 ^ 52 * (2 * j) : Int) : ℚ) * u = 2 ^ 52 * (2 * j * u) := by push_cast; ring
  refine ⟨hq, ?lt, fun hq => ?full, ?low, ?high, fun htie => heven (htie.imp (fun htie => ?_) fun htie => ?_)⟩
  case lt =>
    rw [hspacing, ← htop, ← not_le, hge, not_le, htop]
    exact hlt
  case full =>
    rw [hspacing, ← hbottom, hge, hbottom]
    exact hfull hq
  case low =>
    have := (hge _).2 (hbelow.trans_le (by linarith))
    rw [hbelow] at this
    rw [hj, hspacing]
    linarith
  case high =>
    have := (hle _).2 (le_of_le_of_eq (by linarith) habove.symm : v' ≤ _)
    rw [habove] at this
    rw [hj, hspacing]
    linarith
  · rw [hj, hspacing] at htie
    have := (heq (2 * j * r - j)).1 (by rw [hbelow]; linarith)
    rw [hbelow] at this
    linarith
  · rw [hj, hspacing] at htie
    have := (heq (2 * j * r + j)).1 (by rw [habove]; linarith)
    rw [habove] at this
    linarith

/-! ### The quotient and its remainder bit -/

/-- An integer is on the same side of half the quotient with its bit as of the ratio. -/
theorem ratioSignificand_same_side {d : Nat} (n : Nat) (hd : 0 < d) (c : Int) :
    ((ratioSignificand n d : Int) ≤ 2 * c ↔ ((n * 2 ^ ratioShift n d : Nat) : Int) ≤ c * d) ∧
      (2 * c ≤ (ratioSignificand n d : Int) ↔ c * d ≤ ((n * 2 ^ ratioShift n d : Nat) : Int)) := by
  have hdiv := Nat.div_add_mod' (n * 2 ^ ratioShift n d) d
  have hmod := Nat.mod_lt (n * 2 ^ ratioShift n d) hd
  unfold ratioSignificand
  generalize n * 2 ^ ratioShift n d = dividend at *
  generalize dividend / d = quotient at *
  generalize dividend % d = rest at *
  have hdiv' : (quotient : Int) * d + rest = dividend := by exact_mod_cast hdiv
  obtain hlt | rfl | hgt := lt_trichotomy c quotient
  · have hstep : c * d + d ≤ quotient * d := by nlinarith
    split_ifs <;> constructor <;> omega
  · split_ifs <;> constructor <;> omega
  · have hstep : (quotient : Int) * d + d ≤ c * d := by nlinarith
    split_ifs <;> constructor <;> omega

/-- The same over the unit that the quotient counts. -/
theorem ratio_same_side {d : Nat} (n : Nat) (hd : 0 < d) (e : Int) (c : Int) :
    let v := (n : ℚ) / d * 2 ^ e
    let v' := (ratioSignificand n d : ℚ) * 2 ^ (e - ratioShift n d - 1)
    let u := (2 : ℚ) ^ (e - ratioShift n d)
    (v ≤ c * u ↔ v' ≤ c * u) ∧ (c * u ≤ v ↔ c * u ≤ v') := by
  intro v v' u
  have hd' : (0 : ℚ) < d := Nat.cast_pos.2 hd
  have hu : 0 < u := zpow_pos two_pos _
  have hv : v = ((n * 2 ^ ratioShift n d : Nat) : ℚ) / d * u := ratio_eq n d e
  have hv' : v' = (ratioSignificand n d : ℚ) / 2 * u := ratioSignificand_mul_zpow n d e
  obtain ⟨hle, hge⟩ := ratioSignificand_same_side n hd c
  rw [hv, hv', mul_le_mul_iff_left₀ hu, mul_le_mul_iff_left₀ hu, mul_le_mul_iff_left₀ hu, mul_le_mul_iff_left₀ hu,
    div_le_iff₀ hd', div_le_iff₀ two_pos, le_div_iff₀ hd', le_div_iff₀ two_pos, mul_comm (c : ℚ) 2]
  exact ⟨by exact_mod_cast hle.symm, by exact_mod_cast hge.symm⟩

/-- The quotient has bits enough that its unit divides half the spacing. -/
theorem half_spacing_ratio {n d : Nat} (hn : n ≠ 0) (hd : 0 < d) (e : Int) :
    ∃ j : Nat, (2 : ℚ) ^ quantum (ratioSignificand n d) (e - ratioShift n d - 1) / 2 = j * 2 ^ (e - ratioShift n d) := by
  have hbits : 2 ^ 56 ≤ ratioSignificand n d := Machine.le_ratioSignificand hd (le_shifted_dividend hn)
  have hlog : 56 ≤ (ratioSignificand n d).log2 := (Nat.le_log2 (by omega)).2 hbits
  have hq : e - ratioShift n d ≤ quantum (ratioSignificand n d) (e - ratioShift n d - 1) - 1 := by
    unfold quantum
    omega
  have h := mul_zpow_eq_of_le 1 hq
  rw [Nat.cast_one, one_mul, zpow_sub_one₀ two_ne_zero, ← div_eq_mul_inv] at h
  exact ⟨_, h⟩

/-! ### The operation -/

theorem isRounding_roundRatio {n d : Nat} (hn : n ≠ 0) (hd : 0 < d) (e : Int) (neg : Bool) :
    IsRounding (if neg then -((n : ℚ) / d * 2 ^ e) else (n : ℚ) / d * 2 ^ e) (roundRatio neg n d e) := by
  have hv : (0 : ℚ) < (n : ℚ) / d * 2 ^ e :=
    mul_pos (div_pos (Nat.cast_pos.2 (Nat.pos_of_ne_zero hn)) (Nat.cast_pos.2 hd)) (zpow_pos two_pos e)
  have hsig : ratioSignificand n d ≠ 0 := by
    have := Machine.le_ratioSignificand hd (le_shifted_dividend hn)
    omega
  obtain ⟨j, hj⟩ := half_spacing_ratio hn hd e
  have hrounds := (roundsAt_dyadic hsig (e - ratioShift n d - 1)).of_same_side j hj
    (fun c => (ratio_same_side n hd e c).1) fun c => (ratio_same_side n hd e c).2
  rw [roundRatio_eq]
  exact isRounding_roundDyadic hv hsig hrounds neg

theorem isRounding_fdiv {a b : F64} (ha : isFinite a = true) (hb : isFinite b = true) (h0 : isZero b = false) :
    IsRounding (ratOf a / ratOf b) (fdiv a b) := by
  have h : fdiv a b = roundRatio (signBit a != signBit b) (significand a) (significand b) (exponent a - exponent b) := by
    simp [fdiv, isNaN_of_isFinite, isInf_of_isFinite, ha, hb, h0]
  have hb0 : ratOf b ≠ 0 := fun hzero => by simp [(ratOf_eq_zero_iff b).1 hzero] at h0
  have hv : (significand a : ℚ) / significand b * 2 ^ (exponent a - exponent b) = |ratOf a| / |ratOf b| := by
    rw [abs_ratOf, abs_ratOf, zpow_sub₀ two_ne_zero, mul_div_mul_comm]
  have hexact : ratOf a / ratOf b =
      if signBit a != signBit b then -(|ratOf a| / |ratOf b|) else |ratOf a| / |ratOf b| := by
    conv_lhs => rw [ratOf_eq_abs a, ratOf_eq_abs b]
    cases signBit a <;> cases signBit b <;> simp [neg_div, div_neg]
  rw [h]
  by_cases ha0 : significand a = 0
  · have hzero : ratOf a = 0 := by rw [← abs_eq_zero, abs_ratOf, ha0, Nat.cast_zero, zero_mul]
    have hround (neg : Bool) (d : Nat) (e : Int) : roundRatio neg 0 d e = signedZero neg := by
      rw [roundRatio_eq, show ratioSignificand 0 d = 0 by simp [ratioSignificand]]
      exact if_pos rfl
    rw [ha0, hround, hzero, zero_div]
    exact isRounding_signedZero _
  · rw [hexact, ← hv]
    exact isRounding_roundRatio ha0 (significand_pos hb0) _ _

/-- Settles O59: the quotient of finite values is the rounded ratio, and by zero the operation's own two cases. -/
theorem divisionRounds : Obligations.DivisionRounds := by
  intro a b ha hb
  refine ⟨isRounding_fdiv ha hb, fun hb0 ha0 => ?_, fun hb0 ha0 => ?_⟩
  · simp [fdiv, isNaN_of_isFinite, isInf_of_isFinite, ha, hb, hb0, ha0]
  · have h : fdiv a b = nanResult .div a b := by simp [fdiv, isNaN_of_isFinite, isInf_of_isFinite, ha, hb, hb0, ha0]
    rw [h]
    exact isNaN_nanResult .div a b

end Sys2Proof.Machine
